-- ==== Sys2Proof/Word.lean ====
section
/-!
DEFINITION. The words of the machine and their plainest arithmetic.

A register, an address while it is computed and a field of an encoded instruction are bit vectors; an identifier, a count,
a size and the key of a memory cell are natural numbers.
-/

namespace Sys2Proof

/-- A 32-bit register or instruction word. -/
abbrev Word := BitVec 32

/-- One byte of memory. -/
abbrev Byte := BitVec 8

/-- A 64-bit effective address (R64 forms it modulo 2^64). -/
abbrev Addr := BitVec 64

/-- The 32 lanes of one vector register (R6). -/
abbrev Lanes := Vector Word 32

/-- A 32-bit thread mask or predicate: bit t is thread t. -/
abbrev Mask := BitVec 32

/-- A field that names a vector or scalar register. -/
abbrev Reg := BitVec 7

/-- A field that names a predicate. -/
abbrev Pred := BitVec 4

/-- Thread t is in the mask. -/
def Mask.has (m : Mask) (t : Nat) : Bool := m.getLsbD t

/-- The threads of a mask in ascending order. -/
def Mask.threads (m : Mask) : List (Fin 32) := (List.finRange 32).filter fun t => m.getLsbD t

/-- The mask of the threads that satisfy a predicate. -/
def Mask.ofFn (f : Fin 32 → Bool) : Mask :=
  (List.finRange 32).foldl (fun m t => if f t then m ||| (1#32 <<< t.val) else m) 0#32

/-- A 64-bit value from its low and high words. -/
def pair64 (lo hi : Word) : BitVec 64 := hi ++ lo

/-- The low word of a 64-bit value. -/
def lo32 (x : BitVec 64) : Word := x.extractLsb' 0 32

/-- The high word of a 64-bit value. -/
def hi32 (x : BitVec 64) : Word := x.extractLsb' 32 32

end Sys2Proof
end

