-- ==== Sys2Proof/Config.lean ====
section
/-!
DEFINITION. What the manual leaves open or fixes by another standard: opaque constants.

Each is a constant with no body, so nothing that is proved can rest on a value of it. A step applies the free values to the
counter `State.freeIx`, which it advances, so that two uses are unrelated (log entries 2 and 12).
-/

namespace Sys2Proof.Config

/-- The core cycles that pass between one step and the next: free (log 2).
R12, R131, R195 and R227 give occupancies and unloaded latencies, which decide no result (R3, R99). -/
opaque elapsed : Nat → Nat

/-- The L2 way that a fill takes, among those that R358 allows: the manual gives no replacement rule (log 4). -/
opaque way : Nat → Nat

/-- A value that the manual leaves unstated: the elements, scales and flags of a converting copy whose tile does not cover a whole
rotation or scale block of its destination (R52, R235; log 16). -/
opaque freeWord : Nat → Word

/-- The digest of a measured object, SHA-512 as R368 names it; the images themselves are not in the manual (log 12). -/
opaque digest : List Nat → BitVec 512

/-- A signature made with the identity key (ECDSA P-521, R368); the key never leaves the sluice controller (log 12). -/
opaque signature : List Nat → BitVec 1056

/-- The certificate chain that GET_CERTIFICATE returns (R368), at a byte offset (log 12). -/
opaque certificate : Nat → BitVec 8

/-- The content of an SPDM answer that the DMTF specification defines and R368 only names (log 12). -/
opaque spdmAnswer : Nat → List Nat → BitVec 64

end Sys2Proof.Config
end

