-- ==== Sys2Proof/Syntax.lean ====
section
/-!
DEFINITION. The abstract syntax: one constructor of `Instr` for every row of spec/opcode_table.json.

Rows 0 to 156 are instruction words; their fields are named as the table names them and keep the width of the field.
Rows 157 to 252 are steps of the device that no word encodes (events); their operands say on what the step acts.
-/

namespace Sys2Proof

/-- A warp, named by its context, grid, team and warp number (R8, R123). -/
structure WarpId where
  ctx : Nat
  grid : Nat
  team : Nat
  warp : Nat
  deriving DecidableEq, Repr

/-- A team, named by its context, grid and team number. -/
structure TeamId where
  ctx : Nat
  grid : Nat
  team : Nat
  deriving DecidableEq, Repr

/-- The team of a warp. -/
def WarpId.teamId (w : WarpId) : TeamId := ⟨w.ctx, w.grid, w.team⟩

/-- The maskable features of R126, in the order of the capability identifiers 0x0010 to 0x0017 (R378). -/
inductive Feature where
  | matrix | adapterGather | structuredSparsity | nestedLaunch | workGraph | countedTasks | domainAtomics | variantSwitching
  deriving DecidableEq, Repr

/-- A host write to a function's portal page or another offset of its BAR (R296, R297, R363). -/
structure BarWrite where
  vf : Nat
  offset : Nat
  pasid : Option Nat
  bytes : List Byte
  deriving DecidableEq, Repr

/-- What a request that arrives on a weft link asks for (R80, R208). -/
inductive WeftKind where
  | load (size : Nat)
  /-- The bytes, and the poison bit of the flit that carries them (R364). -/
  | store (bytes : List Byte) (poisoned : Bool)
  | atomic (code : Nat) (isUnsigned isFloat : Bool) (size : Nat) (operand compare : BitVec 64)
  deriving DecidableEq, Repr

/-- A request on a weft link: the 18-bit domain identity of R365, the physical address, what it asks for. -/
structure WeftRequest where
  identity : Nat
  pa : Nat
  kind : WeftKind
  deriving DecidableEq, Repr

/-- A firmware image as the sluice controller finds it (R367, R368). -/
structure Image where
  /-- Its signature verifies. -/
  valid : Bool
  version : Nat
  bytes : List Byte
  /-- A test image: while it runs, only planar packing is accepted (R41). -/
  test : Bool
  deriving DecidableEq, Repr

/-- What the sluice controller finds when it starts (R2, R367): the flash, the images and the self-tests lie outside the device. -/
structure StartRecord where
  /-- The signature of the configuration record verifies. -/
  recordValid : Bool
  /-- The bytes of the record, which measurement block 3 measures (R368). -/
  bytes : List Byte
  /-- The per-part trim (R2). -/
  trim : Nat
  /-- The identity key, which never leaves the controller (R2, R368). -/
  identityKey : Nat
  /-- Security version of the record. -/
  version : Nat
  /-- Minimum image version that the record states. -/
  minVersion : Nat
  sluiceImage : Image
  heddleImage : Image
  /-- The packing unit passes its self-test (R41). -/
  packingOk : Bool
  /-- Defective physical cores (ply, sector, index 0 to 21). -/
  defects : List (Nat × Nat × Nat)
  /-- The list of retired frames held in flash (R374). -/
  retired : List Nat
  /-- The stepping of the part (R378). -/
  stepping : Nat
  /-- The width and rate to which the host link trains, as the device entry reports them (R362). -/
  linkWidth : Nat
  linkRate : Nat
  deriving DecidableEq, Repr

/-- A structure of a partition that caches translations (R69): a core's TLB, a sector's L2 TLB, the walk-ahead TLB of a core's operand fetcher or
of a copy engine. -/
inductive TlbSite where
  | core (n : Nat)
  | sector (n : Nat)
  | fetcher (core : Nat)
  | engine (n : Nat)
  deriving DecidableEq, Repr

/-- Where an uncorrectable error lies (R371). -/
inductive ErrorSite where
  /-- A clean L1 line of a core, by home address. -/
  | cleanL1 (part core ha : Nat)
  /-- A clean L2 line, by home address. -/
  | cleanL2 (ha : Nat)
  /-- A dirty L2 line, by home address (R372). -/
  | dirtyL2 (ha : Nat)
  /-- DRAM, on the fill of a sector. -/
  | dramSector (ha : Nat)
  /-- Core SRAM that holds state of one context; the core repeats such errors when `repeats` (R360). -/
  | coreSram (part core ctx : Nat) (repeats : Bool)
  /-- A tag whose context field resolves by majority, in a dirty private L1 line. -/
  | tagResolvedL1 (part core ha : Nat)
  /-- A tag whose context field resolves by majority, in an L2 line. -/
  | tagResolvedL2 (ha : Nat)
  /-- A tag whose context field resolves by majority, in the entry of a TLB for a page. -/
  | tagResolvedTlb (part : Nat) (site : TlbSite) (ctx page : Nat)
  /-- A tag whose context field does not resolve, in the L2 line at a home address. -/
  | tagUnresolved (ha : Nat)
  /-- The same in a core's L1 line. -/
  | tagUnresolvedL1 (part core ha : Nat)
  /-- The same in the entry of a TLB for a page. -/
  | tagUnresolvedTlb (part : Nat) (site : TlbSite) (page : Nat)
  /-- A core fails its self-test: no context's state is lost (R360). -/
  | selfTest (part core : Nat)
  /-- All three copies of an entry of a table of R366. -/
  | tableLost
  deriving DecidableEq, Repr

/-- Where soft errors were corrected, and how many (R370). -/
inductive CorrectedErrors where
  | bank (n count : Nat)
  | core (part n count : Nat)
  deriving DecidableEq, Repr

/-- What the sensor of a ply reads, in degrees Celsius (R352). -/
structure PlyTemperature where
  ply : Nat
  celsius : Nat
  deriving DecidableEq, Repr

/-- The three place tables of a partition (R359). -/
inductive PlaceTable where
  | core | cluster | engine
  deriving DecidableEq, Repr

/-- The messages of TDISP that change or read an interface's state (R362, R363). -/
inductive TdispMessage where
  | lockInterface | startInterface | stopInterface | getState
  deriving DecidableEq, Repr

/-- What a management command does with the retired-frame list (R369, R374). -/
inductive RetiredCommand where
  | read | clear
  deriving DecidableEq, Repr

/-- A row that the sluice firmware writes into a link table (R365). -/
inductive LinkTableWrite where
  /-- The links that lead to a device. -/
  | route (device : Nat) (links : List Nat)
  /-- The local context of a domain identity; none marks it absent. -/
  | ingress (identity : Nat) (ctx : Option Nat)
  /-- The number of this device in the load-store domain. -/
  | device (n : Nat)
  deriving DecidableEq, Repr

/-- How a management or attestation message reaches the controller (R368, R369). -/
structure Endpoint where
  /-- The physical function's DOE or mailbox, or an MCTP endpoint; false for a virtual function. -/
  trusted : Bool
  /-- The message came inside the secured session. -/
  secured : Bool
  deriving DecidableEq, Repr

/-- The instructions of the EX-812 and the steps of the device. -/
inductive Instr where
  /-- `sadd` (R136): Adds two scalars, or two 64-bit pairs, under the integer mode, writing the result to sd. -/
  | sadd (w : BitVec 1) (m : BitVec 2) (d a b : BitVec 7)
  /-- `ssub` (R136): Subtracts scalar sb from sa, or pair from pair, under the integer mode. -/
  | ssub (w : BitVec 1) (m : BitVec 2) (d a b : BitVec 7)
  /-- `smul` (R137): Multiplies two scalars under the multiply mode. -/
  | smul (m : BitVec 2) (d a b : BitVec 7)
  /-- `sdiv` (R138): Divides two scalars, signed or unsigned, writing quotient and remainder to a pair. -/
  | sdiv (u : BitVec 1) (d a b : BitVec 7)
  /-- `sand` (R139): Bitwise AND of two scalars. -/
  | sand (d a b : BitVec 7)
  /-- `sor` (R139): Bitwise OR of two scalars. -/
  | sor (d a b : BitVec 7)
  /-- `sxor` (R139): Bitwise XOR of two scalars. -/
  | sxor (d a b : BitVec 7)
  /-- `sandn` (R139): Bitwise sa AND NOT sb. -/
  | sandn (d a b : BitVec 7)
  /-- `sshl` (R139): Shifts a scalar left by a register count. -/
  | sshl (d a b : BitVec 7)
  /-- `sshr` (R139): Shifts a scalar right logically by a register count. -/
  | sshr (d a b : BitVec 7)
  /-- `ssra` (R139): Shifts a scalar right arithmetically by a register count. -/
  | ssra (d a b : BitVec 7)
  /-- `smin` (R140): Writes the smaller of two scalars, signed or unsigned. -/
  | smin (m : BitVec 2) (d a b : BitVec 7)
  /-- `smax` (R140): Writes the larger of two scalars, signed or unsigned. -/
  | smax (m : BitVec 2) (d a b : BitVec 7)
  /-- `scmp` (R141): Compares two scalars under a condition code and writes 1 or 0. -/
  | scmp (c : BitVec 3) (d a b : BitVec 7)
  /-- `sclz` (R142): Counts the leading zero bits of a scalar. -/
  | sclz (d a : BitVec 7)
  /-- `spopc` (R142): Counts the one bits of a scalar. -/
  | spopc (d a : BitVec 7)
  /-- `srd` (R143): Reads a special register into a scalar, latching clockhi on a clocklo read. -/
  | srd (d a : BitVec 7)
  /-- `swr` (R144): Writes bits 6:0 of a scalar to nflags. -/
  | swr (a : BitVec 7)
  /-- `saddi` (R145): Adds a signed 10-bit immediate to a scalar. -/
  | saddi (d a : BitVec 7) (i : BitVec 10)
  /-- `sandi` (R145): ANDs a scalar with a zero-extended immediate. -/
  | sandi (d a : BitVec 7) (i : BitVec 10)
  /-- `sori` (R145): ORs a scalar with a zero-extended immediate. -/
  | sori (d a : BitVec 7) (i : BitVec 10)
  /-- `sxori` (R145): XORs a scalar with a zero-extended immediate. -/
  | sxori (d a : BitVec 7) (i : BitVec 10)
  /-- `sshli` (R145): Shifts a scalar left by an immediate count. -/
  | sshli (d a : BitVec 7) (n : BitVec 5)
  /-- `sshri` (R145): Shifts a scalar right logically by an immediate count. -/
  | sshri (d a : BitVec 7) (n : BitVec 5)
  /-- `ssrai` (R145): Shifts a scalar right arithmetically by an immediate count. -/
  | ssrai (d a : BitVec 7) (n : BitVec 5)
  /-- `smuli` (R145): Multiplies a scalar by a signed immediate, keeping the low 32 bits. -/
  | smuli (d a : BitVec 7) (i : BitVec 10)
  /-- `scmpi` (R146): Compares a scalar with a signed 7-bit immediate under a condition code. -/
  | scmpi (d a : BitVec 7) (c : BitVec 3) (i : BitVec 7)
  /-- `sldi` (R147): Loads a sign-extended 17-bit immediate into a scalar. -/
  | sldi (d : BitVec 7) (i : BitVec 17)
  /-- `sldhi` (R147): Writes a 17-bit immediate to bits 31:15 of a scalar. -/
  | sldhi (d : BitVec 7) (i : BitVec 17)
  /-- `vadd` (R150): Adds per lane under the integer mode. -/
  | vadd (u : BitVec 1) (m : BitVec 2) (d a b : BitVec 7)
  /-- `vsub` (R150): Subtracts per lane under the integer mode. -/
  | vsub (u : BitVec 1) (m : BitVec 2) (d a b : BitVec 7)
  /-- `vmul` (R150): Multiplies per lane under the multiply mode. -/
  | vmul (u : BitVec 1) (m : BitVec 2) (d a b : BitVec 7)
  /-- `vmad` (R151): Multiplies and accumulates into the destination, 32- or 64-bit. -/
  | vmad (u : BitVec 1) (m : BitVec 2) (d a b : BitVec 7)
  /-- `vand` (R152): Bitwise AND per lane. -/
  | vand (u : BitVec 1) (d a b : BitVec 7)
  /-- `vor` (R152): Bitwise OR per lane. -/
  | vor (u : BitVec 1) (d a b : BitVec 7)
  /-- `vxor` (R152): Bitwise XOR per lane. -/
  | vxor (u : BitVec 1) (d a b : BitVec 7)
  /-- `vshl` (R152): Shifts each lane left. -/
  | vshl (u : BitVec 1) (d a b : BitVec 7)
  /-- `vshr` (R152): Shifts each lane right logically. -/
  | vshr (u : BitVec 1) (d a b : BitVec 7)
  /-- `vsra` (R152): Shifts each lane right arithmetically. -/
  | vsra (u : BitVec 1) (d a b : BitVec 7)
  /-- `vmin` (R153): Writes the smaller value per lane, signed or unsigned. -/
  | vmin (u : BitVec 1) (m : BitVec 2) (d a b : BitVec 7)
  /-- `vmax` (R153): Writes the larger value per lane, signed or unsigned. -/
  | vmax (u : BitVec 1) (m : BitVec 2) (d a b : BitVec 7)
  /-- `vcmp` (R154): Compares lanes and writes a predicate bit per active thread. -/
  | vcmp (u : BitVec 1) (c : BitVec 3) (p : BitVec 4) (a b : BitVec 7)
  /-- `vcmpn` (R154): Compares lanes unsigned and writes a predicate. -/
  | vcmpn (u : BitVec 1) (c : BitVec 3) (p : BitVec 4) (a b : BitVec 7)
  /-- `vsel` (R155): Writes va into lanes whose predicate bit is set. -/
  | vsel (d a : BitVec 7) (p : BitVec 4)
  /-- `vbfe` (R156): Extracts a bit field per lane, zero- or sign-extended. -/
  | vbfe (u : BitVec 1) (m : BitVec 2) (d a b : BitVec 7)
  /-- `vbfi` (R156): Inserts a bit field into each destination lane. -/
  | vbfi (u : BitVec 1) (d a b : BitVec 7)
  /-- `vpopc` (R157): Counts the one bits of each lane. -/
  | vpopc (d a : BitVec 7)
  /-- `vclz` (R157): Counts the leading zero bits of each lane. -/
  | vclz (d a : BitVec 7)
  /-- `vmov` (R158): Copies a vector or scalar into each active lane. -/
  | vmov (u : BitVec 1) (d b : BitVec 7)
  /-- `vfadd` (R159): Adds binary32 lanes under a rounding mode. -/
  | vfadd (u : BitVec 1) (r : BitVec 2) (d a b : BitVec 7)
  /-- `vfmul` (R159): Multiplies binary32 lanes under a rounding mode. -/
  | vfmul (u : BitVec 1) (r : BitVec 2) (d a b : BitVec 7)
  /-- `vfma` (R159): Fused multiply-add of binary32 lanes with one rounding. -/
  | vfma (u : BitVec 1) (r : BitVec 2) (d a b : BitVec 7)
  /-- `vfsub` (R159): Subtracts binary32 lanes under a rounding mode. -/
  | vfsub (u : BitVec 1) (r : BitVec 2) (d a b : BitVec 7)
  /-- `vfmin` (R160): Writes the smaller binary32 value per lane. -/
  | vfmin (u : BitVec 1) (d a b : BitVec 7)
  /-- `vfmax` (R160): Writes the larger binary32 value per lane. -/
  | vfmax (u : BitVec 1) (d a b : BitVec 7)
  /-- `vfcmp` (R161): Compares binary32 lanes and writes a predicate. -/
  | vfcmp (u : BitVec 1) (c : BitVec 3) (p : BitVec 4) (a b : BitVec 7)
  /-- `vxf` (R162): Computes a correctly rounded transcendental function per lane. -/
  | vxf (d a : BitVec 7) (f : BitVec 3)
  /-- `vcvt` (R163): Converts each lane between number formats. -/
  | vcvt (r : BitVec 2) (d a : BitVec 7) (s t : BitVec 3) (q : BitVec 1)
  /-- `vpk` (R164): Packs small fields of two sources into each destination lane. -/
  | vpk (u : BitVec 1) (w : BitVec 2) (d a b : BitVec 7)
  /-- `vupk` (R165): Extracts one small element of each lane, zero-extended. -/
  | vupk (u : BitVec 1) (w : BitVec 2) (d a b : BitVec 7)
  /-- `vshfl` (R167): Moves values between lanes of the fragment. -/
  | vshfl (u : BitVec 1) (m : BitVec 2) (d a b : BitVec 7)
  /-- `vaddi` (R150): Adds a signed immediate to each lane. -/
  | vaddi (d a : BitVec 7) (i : BitVec 10)
  /-- `vandi` (R152): ANDs each lane with a zero-extended immediate. -/
  | vandi (d a : BitVec 7) (i : BitVec 10)
  /-- `vori` (R152): ORs each lane with a zero-extended immediate. -/
  | vori (d a : BitVec 7) (i : BitVec 10)
  /-- `vxori` (R152): XORs each lane with a zero-extended immediate. -/
  | vxori (d a : BitVec 7) (i : BitVec 10)
  /-- `vshli` (R152): Shifts each lane left by an immediate count. -/
  | vshli (d a : BitVec 7) (n : BitVec 5)
  /-- `vshri` (R152): Shifts each lane right logically by an immediate count. -/
  | vshri (d a : BitVec 7) (n : BitVec 5)
  /-- `vsrai` (R152): Shifts each lane right arithmetically by an immediate count. -/
  | vsrai (d a : BitVec 7) (n : BitVec 5)
  /-- `vmuli` (R150): Multiplies each lane by a signed immediate. -/
  | vmuli (d a : BitVec 7) (i : BitVec 10)
  /-- `vcmpi` (R154): Compares each lane with a signed immediate and writes a predicate. -/
  | vcmpi (c : BitVec 3) (p : BitVec 4) (a : BitVec 7) (i : BitVec 10)
  /-- `vldi` (R158): Writes a sign-extended 17-bit immediate to each lane. -/
  | vldi (d : BitVec 7) (i : BitVec 17)
  /-- `vfldi` (R158): Writes a 17-bit immediate to bits 31:15 of each lane. -/
  | vfldi (d : BitVec 7) (i : BitVec 17)
  /-- `vvote` (R168): Summarises a predicate over the active threads into a scalar. -/
  | vvote (d : BitVec 7) (p : BitVec 4) (m : BitVec 2)
  /-- `vred` (R169): Reduces a vector over active threads by a fixed tree into a scalar. -/
  | vred (d a : BitVec 7) (c : BitVec 4)
  /-- `vscan` (R170): Writes the inclusive prefix of a vector in each active lane. -/
  | vscan (d a : BitVec 7) (c : BitVec 4)
  /-- `vhadm` (R171): Applies a keyed 16-point Hadamard rotation within each half warp. -/
  | vhadm (d a s : BitVec 7)
  /-- `vgetid` (R172): Writes a thread identifier into each active lane. -/
  | vgetid (d : BitVec 7) (k : BitVec 10)
  /-- `ldg.b8` (R200): Loads 8 bits per thread from global memory. -/
  | ldgB8 (c : BitVec 2) (k : BitVec 1) (d a b : BitVec 7)
  /-- `ldg.b16` (R200): Loads 16 bits per thread from global memory. -/
  | ldgB16 (c : BitVec 2) (k : BitVec 1) (d a b : BitVec 7)
  /-- `ldg.b32` (R200): Loads 32 bits per thread from global memory. -/
  | ldgB32 (c : BitVec 2) (k : BitVec 1) (d a b : BitVec 7)
  /-- `ldg.b64` (R200): Loads 64 bits per thread from global memory into a pair. -/
  | ldgB64 (c : BitVec 2) (k : BitVec 1) (d a b : BitVec 7)
  /-- `ldg.b128` (R200): Loads 128 bits per thread from global memory into four registers. -/
  | ldgB128 (c : BitVec 2) (k : BitVec 1) (d a b : BitVec 7)
  /-- `stg.b8` (R200): Stores 8 bits per thread to global memory. -/
  | stgB8 (c : BitVec 2) (k : BitVec 1) (d a b : BitVec 7)
  /-- `stg.b16` (R200): Stores 16 bits per thread to global memory. -/
  | stgB16 (c : BitVec 2) (k : BitVec 1) (d a b : BitVec 7)
  /-- `stg.b32` (R200): Stores 32 bits per thread to global memory. -/
  | stgB32 (c : BitVec 2) (k : BitVec 1) (d a b : BitVec 7)
  /-- `stg.b64` (R200): Stores 64 bits per thread to global memory. -/
  | stgB64 (c : BitVec 2) (k : BitVec 1) (d a b : BitVec 7)
  /-- `stg.b128` (R200): Stores 128 bits per thread to global memory. -/
  | stgB128 (c : BitVec 2) (k : BitVec 1) (d a b : BitVec 7)
  /-- `lds` (R201): Loads from the team's virtual scratchpad. -/
  | lds (z : BitVec 2) (k : BitVec 1) (d a b : BitVec 7)
  /-- `sts` (R201): Stores to the team's virtual scratchpad. -/
  | sts (z : BitVec 2) (k : BitVec 1) (d a b : BitVec 7)
  /-- `ldx` (R203): Loads from a lexical frame by level and offset. -/
  | ldx (z : BitVec 2) (k : BitVec 1) (d a : BitVec 7) (l : BitVec 4) (i : BitVec 3)
  /-- `stx` (R203): Stores to a lexical frame by level and offset. -/
  | stx (z : BitVec 2) (k : BitVec 1) (d a : BitVec 7) (l : BitVec 4) (i : BitVec 3)
  /-- `ldp` (R202): Loads per-thread private words. -/
  | ldp (z : BitVec 2) (k : BitVec 1) (d a b : BitVec 7)
  /-- `stp` (R202): Stores per-thread private words. -/
  | stp (z : BitVec 2) (k : BitVec 1) (d a b : BitVec 7)
  /-- `atomg.i32` (R205): Performs a signed 32-bit device-scope atomic on global memory. -/
  | atomgI32 (c : BitVec 3) (d a b : BitVec 7)
  /-- `atomg.n32` (R205): Performs an unsigned 32-bit device-scope atomic on global memory. -/
  | atomgN32 (c : BitVec 3) (d a b : BitVec 7)
  /-- `atomg.f32` (R207): Performs a binary32 device-scope atomic on global memory. -/
  | atomgF32 (c : BitVec 3) (d a b : BitVec 7)
  /-- `atomg.i64` (R205): Performs a signed 64-bit device-scope atomic on global memory. -/
  | atomgI64 (c : BitVec 3) (d a b : BitVec 7)
  /-- `atomg.n64` (R205): Performs an unsigned 64-bit device-scope atomic on global memory. -/
  | atomgN64 (c : BitVec 3) (d a b : BitVec 7)
  /-- `atomd.i32` (R205): Performs an irrevocable 32-bit domain-scope atomic. -/
  | atomdI32 (c : BitVec 3) (d a b : BitVec 7)
  /-- `atomd.i64` (R205): Performs an irrevocable 64-bit domain-scope atomic. -/
  | atomdI64 (c : BitVec 3) (d a b : BitVec 7)
  /-- `atomy.i32` (R205): Performs an irrevocable 32-bit system-scope atomic. -/
  | atomyI32 (c : BitVec 3) (d a b : BitVec 7)
  /-- `atomy.i64` (R205): Performs an irrevocable 64-bit system-scope atomic. -/
  | atomyI64 (c : BitVec 3) (d a b : BitVec 7)
  /-- `atoms.i32` (R205): Performs a signed 32-bit atomic on scratchpad. -/
  | atomsI32 (c : BitVec 3) (d a b : BitVec 7)
  /-- `atoms.n32` (R205): Performs an unsigned 32-bit atomic on scratchpad. -/
  | atomsN32 (c : BitVec 3) (d a b : BitVec 7)
  /-- `atoms.f32` (R207): Performs a binary32 atomic on scratchpad. -/
  | atomsF32 (c : BitVec 3) (d a b : BitVec 7)
  /-- `atomx.i32` (R206): Performs a 32-bit atomic on a lexical frame word. -/
  | atomxI32 (c : BitVec 3) (d a : BitVec 7) (l : BitVec 4) (i : BitVec 3)
  /-- `atomx.i64` (R206): Performs a 64-bit atomic on a lexical frame word. -/
  | atomxI64 (c : BitVec 3) (d a : BitVec 7) (l : BitVec 4) (i : BitVec 3)
  /-- `bra` (R176): Branches the whole fragment unconditionally. -/
  | bra (d : BitVec 24)
  /-- `brd` (R177): Splits the fragment on a predicate with a join address. -/
  | brd (p : BitVec 4) (t j : BitVec 10)
  /-- `brany` (R176): Branches the fragment when any active predicate bit is set. -/
  | brany (p : BitVec 4) (d : BitVec 20)
  /-- `brall` (R176): Branches the fragment when every active predicate bit is set. -/
  | brall (p : BitVec 4) (d : BitVec 20)
  /-- `brz` (R176): Branches when a scalar is zero. -/
  | brz (s : BitVec 7) (d : BitVec 17)
  /-- `brnz` (R176): Branches when a scalar is nonzero. -/
  | brnz (s : BitVec 7) (d : BitVec 17)
  /-- `jmpr` (R178): Jumps to a 64-bit target held in a scalar pair. -/
  | jmpr (s : BitVec 7)
  /-- `call` (R180): Pushes a return address per active thread and branches. -/
  | call (d : BitVec 24)
  /-- `callr` (R178): Calls a target held in a scalar pair. -/
  | callr (s : BitVec 7)
  /-- `ret` (R181): Returns each active thread to its latest return address. -/
  | ret
  /-- `loop` (R183): Starts a counted hardware loop on a free level. -/
  | loop (s : BitVec 7) (b : BitVec 12)
  /-- `lbrk` (R185): Leaves the fragment's innermost loop level. -/
  | lbrk
  /-- `exit` (R187): Ends every active thread of the fragment. -/
  | exit
  /-- `trap` (R188): Raises software trap 0x17 after completing, with a 16-bit code. -/
  | trap (c : BitVec 16)
  /-- `nop` (R189): Has no effect. -/
  | nop
  /-- `yield` (R189): Meets the yield condition so the warp may be exchanged. -/
  | yield
  /-- `brkpt` (R188): Raises breakpoint 0x18 after completing. -/
  | brkpt
  /-- `gang` (R221): Writes a legal value to the warp's gang register. -/
  | gang (x : BitVec 7)
  /-- `tclaim` (R222): Claims a free operand slot or accumulator tile for the team. -/
  | tclaim (k : BitVec 1) (x : BitVec 7)
  /-- `trel` (R222): Releases a claimed slot or accumulator once operations naming it finish. -/
  | trel (k : BitVec 1) (x : BitVec 7)
  /-- `tfetch` (R223): Queues a fetch of a tile into a claimed operand slot. -/
  | tfetch (x y : BitVec 7)
  /-- `mma` (R225): Queues a joint matrix multiply-accumulate into an accumulator. -/
  | mma (h g c : BitVec 1) (x y z : BitVec 7)
  /-- `mmag` (R226): Queues a joint matrix operation with a per-member B operand. -/
  | mmag (h g c : BitVec 1) (x y z : BitVec 7)
  /-- `mmsp` (R225): Queues a structured-sparse joint matrix operation with metadata. -/
  | mmsp (h g c : BitVec 1) (x y z : BitVec 7)
  /-- `accz` (R228): Queues the zeroing of an accumulator. -/
  | accz (x : BitVec 7)
  /-- `drainmx` (R229): Queues a converting drain of an accumulator to memory. -/
  | drainmx (x y z : BitVec 7)
  /-- `drainv` (R230): Queues a copy of one accumulator row into four leased vector registers. -/
  | drainv (x y z : BitVec 7)
  /-- `tcommit` (R215): Closes the warp's open matrix operations into its next tile batch. -/
  | tcommit
  /-- `cpy` (R232): Issues a tile copy between global memory and scratchpad. -/
  | cpy (b : BitVec 1) (d : BitVec 2) (x y z : BitVec 7)
  /-- `cpyg` (R237): Issues a row gather or scatter between global memory and scratchpad. -/
  | cpyg (b : BitVec 1) (d : BitVec 2) (x y z : BitVec 7)
  /-- `cpcommit` (R216): Closes the warp's open copies into its next copy batch. -/
  | cpcommit
  /-- `pft` (R239): Brings a tile into L2 silently. -/
  | pft (y : BitVec 7)
  /-- `wait` (R240): Waits until outstanding loads, stores and batches are within limits. -/
  | wait (l s : BitVec 6) (c t : BitVec 4)
  /-- `fence` (R241): Orders the warp's accesses with acquire or release at a scope. -/
  | fence (k s : BitVec 2)
  /-- `bari` (R243): Initialises a barrier with an arrival count. -/
  | bari (n : BitVec 10) (a : BitVec 7)
  /-- `bara` (R244): Arrives at a barrier, returning the phase and advancing it on the last arrival. -/
  | bara (n : BitVec 10) (a : BitVec 7)
  /-- `barw` (R244): Waits until a barrier's phase differs from an operand. -/
  | barw (n : BitVec 10) (a : BitVec 7)
  /-- `bart` (R244): Tests whether a barrier's phase has passed. -/
  | bart (n : BitVec 10) (a b : BitVec 7)
  /-- `launch` (R245): Asks the front end to create a child grid, returning an identifier or refusal. -/
  | launch (d c f : BitVec 7) (p : BitVec 1)
  /-- `joinw` (R246): Waits for the team's join set to retire and writes its status. -/
  | joinw (s : BitVec 7)
  /-- `lxrd` (R247): Reads a display register into a scalar pair. -/
  | lxrd (l : BitVec 4) (d : BitVec 7)
  /-- `enq` (R248): Offers one record per active thread to a work-graph gatherer. -/
  | enq (p : BitVec 4) (v n : BitVec 7)
  /-- `depdec` (R249): Decrements a task's dependency counter, readying it at zero. -/
  | depdec (s : BitVec 7)
  /-- `winb` (R250): Sets the vector window base. -/
  | winb (b : BitVec 4)
  /-- `fmt` (R251): Writes a legal value to the fragment's format register. -/
  | fmt (s : BitVec 7)
  /-- `swpt` (R252): Marks a switch point where a posted variant switch request is taken. -/
  | swpt (n : BitVec 8)
  /-- `rfe` (R253): Ends the supervisor handler and replays or resumes the user fragment. -/
  | rfe
  /-- `mappg` (R254): Maps a 4 KiB page from a device page pool. -/
  | mappg (a p : BitVec 7)
  /-- `pref` (R239): Prefetches each active thread's sector into L2 or L1 silently. -/
  | pref (l : BitVec 2) (a : BitVec 7)
  /-- `sleep` (R255): Keeps the warp from issuing for 64 times n cycles. -/
  | sleep (n : BitVec 16)
  /-- FRAGMENT_ARRIVAL (R16): A fragment about to issue its record's join instruction dissolves and decrements the count. -/
  | fragmentArrival (w : WarpId) (slot : Fin 2)
  /-- SPILL_ENTRY_READ (R20): The read of the spill-queue head completes and the slot becomes eligible to issue. -/
  | spillEntryRead (w : WarpId) (slot : Fin 2)
  /-- SPILL_ROTATION (R33): After 2,048 cycles with a non-empty spill queue, the older slot fragment and the head swap. -/
  | spillRotation (w : WarpId) (wave : Fin 2)
  /-- WARP_EXCHANGE (R22): An active warp under a long-latency condition is exchanged with the longest-pending ready warp. -/
  | warpExchange (w : WarpId)
  /-- EXCHANGE_COUNT_EXPIRY (R23): An active warp's count reaching 16,384 cycles forces an exchange. -/
  | exchangeCountExpiry (w : WarpId)
  /-- WARP_ACTIVATION (R21): A pending warp that becomes ready on a shuttle with no active warp becomes active. -/
  | warpActivation (w : WarpId)
  /-- SLEEP_EXPIRY (R255): A warp's sleep interval ends and it may issue again. -/
  | sleepExpiry (w : WarpId)
  /-- LOAD_DATA_RETURN (R194): A load's data returns and its destination is written. -/
  | loadDataReturn (w : WarpId) (n : Nat)
  /-- STORE_ACKNOWLEDGED (R194): A store is acknowledged by its bank, link, scratchpad or L1. -/
  | storeAcknowledged (w : WarpId) (n : Nat)
  /-- SCRATCHPAD_PAGE_IN_COMPLETE (R84): A scratchpad page is filled and mapped, and the waiting instruction replays. -/
  | scratchpadPageInComplete (t : TeamId) (page : Nat)
  /-- TILE_FETCH_PERFORM (R223): The operand fetcher fills a slot once earlier operations on it have finished. -/
  | tileFetchPerform (core op : Nat)
  /-- MATRIX_OPERATION_PERFORM (R225): A queued joint matrix operation runs on the array once its operands are ready. -/
  | matrixOperationPerform (core op : Nat)
  /-- ACCZ_PERFORM (R228): A queued accumulator zeroing is performed in queue order. -/
  | acczPerform (core op : Nat)
  /-- DRAINMX_PERFORM (R229): A queued drain writes converted accumulator rows and scales to memory. -/
  | drainmxPerform (core op : Nat)
  /-- DRAINV_PERFORM (R230): A queued drainv copies an accumulator row into leased registers. -/
  | drainvPerform (core op : Nat)
  /-- TILE_BATCH_COMPLETE (R215): A tile batch completes once its operations and earlier batches finish. -/
  | tileBatchComplete (w : WarpId)
  /-- COPY_PERFORM (R235): A copy engine of the pool starts moving and converting a copy's data. -/
  | copyPerform (copy : Nat)
  /-- COPY_COMPLETE (R217): A copy finishes or ends at a fault and writes its token. -/
  | copyComplete (copy : Nat)
  /-- WARP_RETIRE (R17): A warp whose threads have all exited retires once its outstanding work completes. -/
  | warpRetire (w : WarpId)
  /-- VARIANT_SWITCH (R343): A team whose warps have all arrived and whose batches are done switches variant. -/
  | variantSwitch (t : TeamId)
  /-- SWITCH_RENDEZVOUS_TIMEOUT (R252): 4,096 cycles after the first arrival the switch request is withdrawn. -/
  | switchRendezvousTimeout (t : TeamId)
  /-- TEAM_PLACEMENT (R306): The distributor grants a source and places a team on the first core where a variant fits. -/
  | teamPlacement (part : Nat)
  /-- REGISTER_COMPACTION_END (R26): A compaction ends and the moved warps issue again. -/
  | registerCompactionEnd (part core shuttle : Nat)
  /-- FAT_SWITCH_REQUEST (R320): After 50 µs of unused room a fat switch request is posted to the longest resident team. -/
  | fatSwitchRequest (part core : Nat)
  /-- LEAN_MIGRATION (R340): 50 µs without a taken lean switch makes the distributor move a team for a reserved candidate. -/
  | leanMigration (part : Nat)
  /-- MIGRATION_RESUME (R341): A migrated team resumes on its new core. -/
  | migrationResume (t : TeamId)
  /-- NODE_TIMER_EXPIRY (R315): A node's timer lapses and its batch leaves the gatherer. -/
  | nodeTimerExpiry (ctx node : Nat)
  /-- NODE_BATCH_LAUNCH (R315): A gathered batch creates a node grid once a frame of its class is free. -/
  | nodeBatchLaunch (ctx node : Nat)
  /-- CHECKPOINT_INTERVAL_EXPIRY (R333): The checkpoint interval passes and a context checkpoint starts. -/
  | checkpointIntervalExpiry (ctx : Nat)
  /-- CHECKPOINT_END (R333): A context checkpoint ends and its warps may issue. -/
  | checkpointEnd (ctx : Nat)
  /-- TURN_END (R311): A virtual device's deficit runs down or its work ends, closing its turn. -/
  | turnEnd (part : Nat)
  /-- TURN_START (R311): The next virtual device with work starts its turn with deficit Q. -/
  | turnStart (part : Nat)
  /-- PORTAL_WRITE (R297): A 64-byte deferrable write to the portal is buffered, discarded or retried. -/
  | portalWrite (b : BarWrite)
  /-- LAUNCH_PACKET (R300): A launch packet is consumed and creates a root grid or is refused. -/
  | launchPacket (vf queue : Nat)
  /-- TASK_ARM (R317): A task-arm packet writes a task entry and makes it waiting or ready. -/
  | taskArm (vf queue : Nat)
  /-- NODE_DEFINE (R314): A node-define packet writes a work-graph node table entry. -/
  | nodeDefine (vf queue : Nat)
  /-- RECORD_WRITE (R92): A record-write packet replaces a tile record or the context control block. -/
  | recordWrite (vf queue : Nat)
  /-- CONTEXT_SETUP (R299): A context-setup packet sets a context's bases and zeroes its control block. -/
  | contextSetup (vf queue : Nat)
  /-- INVALIDATE_TRANSLATIONS (R70): An invalidation packet drops matching TLB entries of a context range. -/
  | invalidateTranslations (vf queue : Nat)
  /-- FRAME_POOL (R257): A frame-pool packet sets the context's frame pool. -/
  | framePool (vf queue : Nat)
  /-- PAGE_POOL (R299): A page-pool packet sets a device page pool for mappg. -/
  | pagePool (vf queue : Nat)
  /-- KILL_GRID (R268): A kill packet kills a grid and its descendants. -/
  | killGrid (vf queue : Nat)
  /-- TASK_TABLE (R299): A task-table packet sets the context's task table. -/
  | taskTable (vf queue : Nat)
  /-- KEY_TABLE (R316): A key-table packet sets the context's key table base. -/
  | keyTable (vf queue : Nat)
  /-- QUEUE_CONFIGURE (R295): A queue-configure packet creates or destroys a user queue. -/
  | queueConfigure (vf queue : Nat)
  /-- UNKNOWN_PACKET_TYPE (R298): A packet of an unknown type completes with result 0x01. -/
  | unknownPacketType (vf queue : Nat)
  /-- BAR_WRITE_DISCARDED (R363): A BAR write to an offset with no behaviour is discarded. -/
  | barWriteDiscarded (b : BarWrite)
  /-- HOST_READ (R375): A host read of device memory is served, poisoned sectors with the poisoned-TLP bit. -/
  | hostRead (pa size : Nat)
  /-- HOST_WRITE (R93): A host write of device memory enters with a new check value. -/
  | hostWrite (pa : Nat) (bytes : List Byte)
  /-- WEFT_INGRESS_REQUEST (R80): A request arriving on a weft link is mapped through the ingress table and checked. -/
  | weftIngressRequest (r : WeftRequest)
  /-- WEFT_FLIT_RECEIVE (R364): A weft flit is received, replayed on CRC failure, and the link may go down. -/
  | weftFlitReceive (link : Nat) (crcOk : Bool)
  /-- WEFT_REQUEST_TIMEOUT (R364): A request no link carries within 10 ms ends with 0x16. -/
  | weftRequestTimeout (w : WarpId)
  /-- FUNCTION_LEVEL_RESET (R346): A Function Level Reset kills and reclaims a virtual function's contexts and resources. -/
  | functionLevelReset (vf : Nat)
  /-- START_UP (R367): The sluice controller verifies the configuration record, builds tables and enables the link. -/
  | startUp (r : StartRecord)
  /-- THERMAL_SENSOR_READ (R352): Every 100 µs the firmware reads junction sensors and stops or resumes hot plies. -/
  | thermalSensorRead (temps : List PlyTemperature)
  /-- TABLE_SCRUB (R370): Every 10 ms tags and tables are scrubbed. -/
  | tableScrub (corrected : List CorrectedErrors)
  /-- UNCORRECTABLE_ERROR (R371): An uncorrectable error is handled according to where it lies. -/
  | uncorrectableError (site : ErrorSite)
  /-- SET_ROLES (R353): A set-roles command drains and flushes plies changing role. -/
  | setRoles (mask : BitVec 8)
  /-- RE_ENUMERATE (R353): After the drain and flush, cores are gated or enabled and placement resumes. -/
  | reEnumerate
  /-- PARTITION_CREATE (R357): Creates a partition of legal size in the partition table. -/
  | partitionCreate (first size : Nat)
  /-- PARTITION_RESIZE (R357): Resizes a partition that holds no context. -/
  | partitionResize (part first size : Nat)
  /-- PARTITION_REMOVE (R357): Removes a partition that holds no context. -/
  | partitionRemove (part : Nat)
  /-- VF_PARTITION_ASSIGN (R357): Assigns a virtual function to a partition. -/
  | vfPartitionAssign (vf part : Nat)
  /-- PLACE_TABLE_WRITE (R359): Changes a core, cluster or copy-engine place-table entry. -/
  | placeTableWrite (part : Nat) (table : PlaceTable) (logical physical : Nat) (valid : Bool)
  /-- WAY_MASK_SET (R358): Sets the L2 ways a virtual device may fill. -/
  | wayMaskSet (vf : Nat) (mask : BitVec 16)
  /-- FEATURE_MASK_SET (R379): Masks a feature of a virtual function from its next turn. -/
  | featureMaskSet (vf : Nat) (capability : Nat) (masked : Bool)
  /-- QUANTUM_SET (R311): Sets a virtual device's quantum. -/
  | quantumSet (vf microseconds : Nat)
  /-- CHECKPOINT_INTERVAL_SET (R333): Sets a partition's checkpoint interval. -/
  | checkpointIntervalSet (part microseconds : Nat)
  /-- COPY_ENGINE_GROUP_ASSIGN (R361): Assigns copy-engine groups to a partition. -/
  | copyEngineGroupAssign (group part : Nat)
  /-- QUEUE0_STATUS_ADDRESS_SET (R295): Writes a virtual function's queue-0 status address through the physical function. -/
  | queue0StatusAddressSet (vf address : Nat)
  /-- TELEMETRY_READ (R369): A management command returns telemetry. -/
  | telemetryRead (e : Endpoint)
  /-- RETIRED_FRAME_LIST_COMMAND (R369): A management command acts on the retired-frame list. -/
  | retiredFrameListCommand (e : Endpoint) (c : RetiredCommand)
  /-- GET_VERSION (R368): SPDM request returning supported versions. -/
  | getVersion (e : Endpoint)
  /-- GET_CAPABILITIES (R368): SPDM request returning capabilities. -/
  | getCapabilities (e : Endpoint)
  /-- NEGOTIATE_ALGORITHMS (R368): SPDM request negotiating algorithms. -/
  | negotiateAlgorithms (e : Endpoint)
  /-- GET_DIGESTS (R368): SPDM request returning certificate digests. -/
  | getDigests (e : Endpoint)
  /-- GET_CERTIFICATE (R368): SPDM request returning the certificate chain. -/
  | getCertificate (e : Endpoint) (offset length : Nat)
  /-- CHALLENGE (R368): SPDM challenge signed with the identity key. -/
  | challenge (e : Endpoint) (nonce : Nat)
  /-- GET_MEASUREMENTS (R368): SPDM request returning measurement blocks. -/
  | getMeasurements (e : Endpoint) (vf index : Nat)
  /-- KEY_EXCHANGE (R368): SPDM request starting a secured session. -/
  | keyExchange (e : Endpoint) (exchange : Nat) (mutualAuth : Bool)
  /-- FINISH (R368): SPDM request completing a secured session handshake. -/
  | finish (e : Endpoint) (verified : Bool)
  /-- HEARTBEAT (R368): SPDM request keeping a secured session alive. -/
  | heartbeat (e : Endpoint)
  /-- KEY_UPDATE (R368): SPDM request updating session keys. -/
  | keyUpdate (e : Endpoint)
  /-- END_SESSION (R368): SPDM request ending a secured session. -/
  | endSession (e : Endpoint)
  /-- QUERY (R362): IDE_KM query inside a secured session. -/
  | query (e : Endpoint) (stream : Nat)
  /-- KEY_PROG (R362): IDE_KM programming of an IDE stream key. -/
  | keyProg (e : Endpoint) (stream : Nat) (key : BitVec 256)
  /-- K_SET_GO (R362): IDE_KM activation of a key set. -/
  | kSetGo (e : Endpoint) (stream : Nat)
  /-- K_SET_STOP (R362): IDE_KM deactivation of a key set. -/
  | kSetStop (e : Endpoint) (stream : Nat)
  /-- TDISP_MESSAGE (R363): A TDISP message changes a virtual function interface's state. -/
  | tdispMessage (e : Endpoint) (vf : Nat) (m : TdispMessage)
  /-- INSTRUCTION_FETCH (R102): A fragment's 32-byte code block returns from L2 or host memory, or faults with 0x08 or 0x09, and the fragment's next instruction becomes ready or faults. -/
  | instructionFetch (w : WarpId) (slot : Fin 2)
  /-- FRAME_OWNER_CHANGE (R81): The sluice firmware writes back and invalidates a frame's lines and records a new owner in the frame ownership table, retiring the frame if it holds a pending error. -/
  | frameOwnerChange (frame owner : Nat)
  /-- CONTEXT_TEARDOWN (R373): A context, failed or not, is torn down through queue 0 and its identifier and resources are released. -/
  | contextTeardown (ctx : Nat)
  /-- VIRTUAL_FUNCTION_ENABLE (R295): A virtual function is enabled through SR-IOV, and its queue 0 comes into existence. -/
  | virtualFunctionEnable (vf : Nat)
  /-- ROUTE_INGRESS_TABLE_WRITE (R365): The sluice firmware writes a weft route table or ingress-table entry that maps a domain identity to a local context. -/
  | routeIngressTableWrite (e : LinkTableWrite)
  /-- PEER_REMOTE_ABORT (R347): A notice arrives over a weft link that a peer's function was reset, and a source-2 fault record with code 0x0A is written for each local context mapped to it. -/
  | peerRemoteAbort (device peerCtx : Nat)
  /-- MSIX_TABLE_WRITE (R363): A host write to the MSI-X table or pending bits in the function's BAR programs the vectors that fault records and queue-0 events send. -/
  | msixTableWrite (b : BarWrite)
  deriving DecidableEq, Repr

/-- The rows that an instruction word encodes; false for the steps of the device that no word encodes. -/
def Instr.isWord : Instr → Bool
  | .fragmentArrival _ _ => false
  | .spillEntryRead _ _ => false
  | .spillRotation _ _ => false
  | .warpExchange _ => false
  | .exchangeCountExpiry _ => false
  | .warpActivation _ => false
  | .sleepExpiry _ => false
  | .loadDataReturn _ _ => false
  | .storeAcknowledged _ _ => false
  | .scratchpadPageInComplete _ _ => false
  | .tileFetchPerform _ _ => false
  | .matrixOperationPerform _ _ => false
  | .acczPerform _ _ => false
  | .drainmxPerform _ _ => false
  | .drainvPerform _ _ => false
  | .tileBatchComplete _ => false
  | .copyPerform _ => false
  | .copyComplete _ => false
  | .warpRetire _ => false
  | .variantSwitch _ => false
  | .switchRendezvousTimeout _ => false
  | .teamPlacement _ => false
  | .registerCompactionEnd _ _ _ => false
  | .fatSwitchRequest _ _ => false
  | .leanMigration _ => false
  | .migrationResume _ => false
  | .nodeTimerExpiry _ _ => false
  | .nodeBatchLaunch _ _ => false
  | .checkpointIntervalExpiry _ => false
  | .checkpointEnd _ => false
  | .turnEnd _ => false
  | .turnStart _ => false
  | .portalWrite _ => false
  | .launchPacket _ _ => false
  | .taskArm _ _ => false
  | .nodeDefine _ _ => false
  | .recordWrite _ _ => false
  | .contextSetup _ _ => false
  | .invalidateTranslations _ _ => false
  | .framePool _ _ => false
  | .pagePool _ _ => false
  | .killGrid _ _ => false
  | .taskTable _ _ => false
  | .keyTable _ _ => false
  | .queueConfigure _ _ => false
  | .unknownPacketType _ _ => false
  | .barWriteDiscarded _ => false
  | .hostRead _ _ => false
  | .hostWrite _ _ => false
  | .weftIngressRequest _ => false
  | .weftFlitReceive _ _ => false
  | .weftRequestTimeout _ => false
  | .functionLevelReset _ => false
  | .startUp _ => false
  | .thermalSensorRead _ => false
  | .tableScrub _ => false
  | .uncorrectableError _ => false
  | .setRoles _ => false
  | .reEnumerate => false
  | .partitionCreate _ _ => false
  | .partitionResize _ _ _ => false
  | .partitionRemove _ => false
  | .vfPartitionAssign _ _ => false
  | .placeTableWrite _ _ _ _ _ => false
  | .wayMaskSet _ _ => false
  | .featureMaskSet _ _ _ => false
  | .quantumSet _ _ => false
  | .checkpointIntervalSet _ _ => false
  | .copyEngineGroupAssign _ _ => false
  | .queue0StatusAddressSet _ _ => false
  | .telemetryRead _ => false
  | .retiredFrameListCommand _ _ => false
  | .getVersion _ => false
  | .getCapabilities _ => false
  | .negotiateAlgorithms _ => false
  | .getDigests _ => false
  | .getCertificate _ _ _ => false
  | .challenge _ _ => false
  | .getMeasurements _ _ _ => false
  | .keyExchange _ _ _ => false
  | .finish _ _ => false
  | .heartbeat _ => false
  | .keyUpdate _ => false
  | .endSession _ => false
  | .query _ _ => false
  | .keyProg _ _ _ => false
  | .kSetGo _ _ => false
  | .kSetStop _ _ => false
  | .tdispMessage _ _ _ => false
  | .instructionFetch _ _ => false
  | .frameOwnerChange _ _ => false
  | .contextTeardown _ => false
  | .virtualFunctionEnable _ => false
  | .routeIngressTableWrite _ => false
  | .peerRemoteAbort _ _ => false
  | .msixTableWrite _ => false
  | _ => true

end Sys2Proof
end

