-- ==== Sys2Proof/WellFormed.lean ====
section
/-!
DEFINITION. The well-formed instructions: no reserved code, no odd scalar pair, no group beyond s127, no empty loop body
(R117, R124, with the tables R173, R190, R211 and R256). Executing a word that is not well formed raises 0x01.
-/

namespace Sys2Proof

/-- A scalar pair starts at an even register (R117). -/
def evenReg (r : Reg) : Bool := r.getLsbD 0 == false

/-- A group of `n` consecutive scalars stays within s127 (R117). -/
def groupFits (r : Reg) (n : Nat) : Bool := decide (r.toNat + n ≤ 128)

/-- The operands of a 64-bit pair form, when the form is chosen (R120). -/
def pairForm (w : BitVec 1) (d a b : Reg) : Bool := w == 0#1 || (evenReg d && evenReg a && evenReg b)

/-- A matrix operand: a slot scalar, or a triple when it is given by handle (R115). -/
def matrixOperand (byHandle : BitVec 1) (r : Reg) : Bool := byHandle == 0#1 || groupFits r 3

/-- The codes that a binary32 atomic accepts (R207). -/
def floatAtomicCode (c : BitVec 3) : Bool := c == 0#3 || c == 1#3 || c == 2#3 || c == 6#3

/-- The token and barrier scalars of a copy (R233, R234). -/
def copyToken (bar : BitVec 1) (x : Reg) : Bool := bar == 0#1 || (x != 0#7 && groupFits x 2)

/-- The word is no reserved encoding (R127, rank 3). -/
def Instr.wellFormed : Instr → Bool
  | .sadd w m d a b | .ssub w m d a b => m != 3#2 && pairForm w d a b
  | .sdiv _ d _ _ => evenReg d
  | .smin m _ _ _ | .smax m _ _ _ => m == 0#2 || m == 1#2
  | .srd _ a => decide (a.toNat ≤ 22)
  | .vadd _ m _ _ _ | .vsub _ m _ _ _ => m != 3#2
  | .vmad _ m _ _ _ | .vmin _ m _ _ _ | .vmax _ m _ _ _ | .vbfe _ m _ _ _ => m == 0#2 || m == 1#2
  | .vpk _ w _ _ _ | .vupk _ w _ _ _ => w != 3#2
  | .vvote _ _ m => m != 3#2
  | .vred _ _ c | .vscan _ _ c => decide (c.toNat ≤ 10)
  | .vgetid _ k => decide (k.toNat ≤ 2)
  | .ldgB8 c _ _ _ _ | .ldgB16 c _ _ _ _ | .ldgB32 c _ _ _ _ | .ldgB64 c _ _ _ _ | .ldgB128 c _ _ _ _
  | .stgB8 c _ _ _ _ | .stgB16 c _ _ _ _ | .stgB32 c _ _ _ _ | .stgB64 c _ _ _ _ | .stgB128 c _ _ _ _ => c != 3#2
  | .lds z _ _ _ _ | .sts z _ _ _ _ | .ldp z _ _ _ _ | .stp z _ _ _ _ => z != 3#2
  | .ldx z _ _ _ _ _ | .stx z _ _ _ _ _ => z != 3#2
  | .atomgF32 c _ _ _ | .atomsF32 c _ _ _ => floatAtomicCode c
  | .jmpr s | .callr s => evenReg s
  | .loop _ b => b != 0#12
  | .tfetch _ y => groupFits y 3
  | .mma h g _ _ y z | .mmag h g _ _ y z => matrixOperand h y && matrixOperand g z
  | .mmsp h _ _ _ y z => matrixOperand h y && groupFits z 6
  | .drainmx _ y z => groupFits y 3 && groupFits z 3
  | .cpy b d x y z =>
      copyToken b x &&
        (match d.toNat with
        | 0 => groupFits y 3
        | 1 => groupFits z 3
        | 2 => groupFits y 3 && groupFits z 3
        | _ => groupFits y 2)
  | .cpyg b d x _ z => copyToken b x && (d == 0#2 || d == 1#2) && groupFits z 2
  | .pft y => groupFits y 3
  | .fence k _ => k != 0#2
  | .launch d _ _ _ => evenReg d
  | .lxrd _ d => evenReg d
  | .mappg a _ => evenReg a
  | .pref l _ => l == 0#2 || l == 1#2
  | _ => true

end Sys2Proof
end

