-- ==== Sys2Proof/Decode.lean ====
section
/-!
DEFINITION. Decoding of instruction words and their encoder, from the tables R107 to R116.

`decode` is total: a word of no row is rejected by name. A word whose operation number is assigned and whose zero fields are
zero decodes to its row, whatever code its fields hold; a reserved code, an odd pair or a group beyond s127 is a check of
`Instr.wellFormed`, and executing such a word raises 0x01 (R124, R117).
-/

namespace Sys2Proof

/-- Why a word is no instruction; each of them raises 0x01 (R124). -/
inductive DecodeReject where
  /-- The class assigns no operation of this number. -/
  | unassigned
  /-- A bit that the tables give as zero (or a fixed field) holds another value. -/
  | fixedField
  /-- Fewer than four bytes. -/
  | short
  deriving DecidableEq, Repr

/-- Bits `lo + n - 1` to `lo` of a word. -/
def field (w : Word) (lo n : Nat) : BitVec n := w.extractLsb' lo n

/-- An instruction whose fixed bits are as the table gives them. -/
def fixedBits (ok : Bool) (i : Instr) : Except DecodeReject Instr := if ok then .ok i else .error .fixedField

/-- Class S (R108): the operation number is bits 28:24. -/
def decodeS (op : Nat) (w : Word) : Except DecodeReject Instr :=
  match op with
  | 0 => .ok (.sadd (field w 23 1) (field w 21 2) (field w 14 7) (field w 7 7) (field w 0 7))
  | 1 => .ok (.ssub (field w 23 1) (field w 21 2) (field w 14 7) (field w 7 7) (field w 0 7))
  | 2 => fixedBits (field w 23 1 == 0#1) (.smul (field w 21 2) (field w 14 7) (field w 7 7) (field w 0 7))
  | 3 => fixedBits (field w 21 2 == 0#2) (.sdiv (field w 23 1) (field w 14 7) (field w 7 7) (field w 0 7))
  | 4 => fixedBits (field w 21 3 == 0#3) (.sand (field w 14 7) (field w 7 7) (field w 0 7))
  | 5 => fixedBits (field w 21 3 == 0#3) (.sor (field w 14 7) (field w 7 7) (field w 0 7))
  | 6 => fixedBits (field w 21 3 == 0#3) (.sxor (field w 14 7) (field w 7 7) (field w 0 7))
  | 7 => fixedBits (field w 21 3 == 0#3) (.sandn (field w 14 7) (field w 7 7) (field w 0 7))
  | 8 => fixedBits (field w 21 3 == 0#3) (.sshl (field w 14 7) (field w 7 7) (field w 0 7))
  | 9 => fixedBits (field w 21 3 == 0#3) (.sshr (field w 14 7) (field w 7 7) (field w 0 7))
  | 10 => fixedBits (field w 21 3 == 0#3) (.ssra (field w 14 7) (field w 7 7) (field w 0 7))
  | 11 => fixedBits (field w 23 1 == 0#1) (.smin (field w 21 2) (field w 14 7) (field w 7 7) (field w 0 7))
  | 12 => fixedBits (field w 23 1 == 0#1) (.smax (field w 21 2) (field w 14 7) (field w 7 7) (field w 0 7))
  | 13 => .ok (.scmp (field w 21 3) (field w 14 7) (field w 7 7) (field w 0 7))
  | 14 => fixedBits (field w 21 3 == 0#3 && field w 0 7 == 0#7) (.sclz (field w 14 7) (field w 7 7))
  | 15 => fixedBits (field w 21 3 == 0#3 && field w 0 7 == 0#7) (.spopc (field w 14 7) (field w 7 7))
  | 16 => fixedBits (field w 21 3 == 0#3 && field w 0 7 == 0#7) (.srd (field w 14 7) (field w 7 7))
  | 17 => fixedBits (field w 14 10 == 13#10 && field w 0 7 == 0#7) (.swr (field w 7 7))
  | _ => .error .unassigned

/-- Class SI (R109): the operation number is bits 28:24. -/
def decodeSI (op : Nat) (w : Word) : Except DecodeReject Instr :=
  match op with
  | 0 => .ok (.saddi (field w 17 7) (field w 10 7) (field w 0 10))
  | 1 => .ok (.sandi (field w 17 7) (field w 10 7) (field w 0 10))
  | 2 => .ok (.sori (field w 17 7) (field w 10 7) (field w 0 10))
  | 3 => .ok (.sxori (field w 17 7) (field w 10 7) (field w 0 10))
  | 4 => fixedBits (field w 5 5 == 0#5) (.sshli (field w 17 7) (field w 10 7) (field w 0 5))
  | 5 => fixedBits (field w 5 5 == 0#5) (.sshri (field w 17 7) (field w 10 7) (field w 0 5))
  | 6 => fixedBits (field w 5 5 == 0#5) (.ssrai (field w 17 7) (field w 10 7) (field w 0 5))
  | 7 => .ok (.smuli (field w 17 7) (field w 10 7) (field w 0 10))
  | 8 => .ok (.scmpi (field w 17 7) (field w 10 7) (field w 7 3) (field w 0 7))
  | 9 => .ok (.sldi (field w 17 7) (field w 0 17))
  | 10 => .ok (.sldhi (field w 17 7) (field w 0 17))
  | _ => .error .unassigned

/-- Class V (R110): the operation number is bits 28:24. -/
def decodeV (op : Nat) (w : Word) : Except DecodeReject Instr :=
  match op with
  | 0 => .ok (.vadd (field w 23 1) (field w 21 2) (field w 14 7) (field w 7 7) (field w 0 7))
  | 1 => .ok (.vsub (field w 23 1) (field w 21 2) (field w 14 7) (field w 7 7) (field w 0 7))
  | 2 => .ok (.vmul (field w 23 1) (field w 21 2) (field w 14 7) (field w 7 7) (field w 0 7))
  | 3 => .ok (.vmad (field w 23 1) (field w 21 2) (field w 14 7) (field w 7 7) (field w 0 7))
  | 4 => fixedBits (field w 21 2 == 0#2) (.vand (field w 23 1) (field w 14 7) (field w 7 7) (field w 0 7))
  | 5 => fixedBits (field w 21 2 == 0#2) (.vor (field w 23 1) (field w 14 7) (field w 7 7) (field w 0 7))
  | 6 => fixedBits (field w 21 2 == 0#2) (.vxor (field w 23 1) (field w 14 7) (field w 7 7) (field w 0 7))
  | 7 => fixedBits (field w 21 2 == 0#2) (.vshl (field w 23 1) (field w 14 7) (field w 7 7) (field w 0 7))
  | 8 => fixedBits (field w 21 2 == 0#2) (.vshr (field w 23 1) (field w 14 7) (field w 7 7) (field w 0 7))
  | 9 => fixedBits (field w 21 2 == 0#2) (.vsra (field w 23 1) (field w 14 7) (field w 7 7) (field w 0 7))
  | 10 => .ok (.vmin (field w 23 1) (field w 21 2) (field w 14 7) (field w 7 7) (field w 0 7))
  | 11 => .ok (.vmax (field w 23 1) (field w 21 2) (field w 14 7) (field w 7 7) (field w 0 7))
  | 12 => fixedBits (field w 21 2 == 0#2) (.vcmp (field w 23 1) (field w 18 3) (field w 14 4) (field w 7 7) (field w 0 7))
  | 13 => fixedBits (field w 21 2 == 0#2) (.vcmpn (field w 23 1) (field w 18 3) (field w 14 4) (field w 7 7) (field w 0 7))
  | 14 => fixedBits (field w 21 3 == 0#3 && field w 4 3 == 0#3) (.vsel (field w 14 7) (field w 7 7) (field w 0 4))
  | 15 => .ok (.vbfe (field w 23 1) (field w 21 2) (field w 14 7) (field w 7 7) (field w 0 7))
  | 16 => fixedBits (field w 21 2 == 0#2) (.vbfi (field w 23 1) (field w 14 7) (field w 7 7) (field w 0 7))
  | 17 => fixedBits (field w 21 3 == 0#3 && field w 0 7 == 0#7) (.vpopc (field w 14 7) (field w 7 7))
  | 18 => fixedBits (field w 21 3 == 0#3 && field w 0 7 == 0#7) (.vclz (field w 14 7) (field w 7 7))
  | 19 => fixedBits (field w 21 2 == 0#2 && field w 7 7 == 0#7) (.vmov (field w 23 1) (field w 14 7) (field w 0 7))
  | 20 => .ok (.vfadd (field w 23 1) (field w 21 2) (field w 14 7) (field w 7 7) (field w 0 7))
  | 21 => .ok (.vfmul (field w 23 1) (field w 21 2) (field w 14 7) (field w 7 7) (field w 0 7))
  | 22 => .ok (.vfma (field w 23 1) (field w 21 2) (field w 14 7) (field w 7 7) (field w 0 7))
  | 31 => .ok (.vfsub (field w 23 1) (field w 21 2) (field w 14 7) (field w 7 7) (field w 0 7))
  | 23 => fixedBits (field w 21 2 == 0#2) (.vfmin (field w 23 1) (field w 14 7) (field w 7 7) (field w 0 7))
  | 24 => fixedBits (field w 21 2 == 0#2) (.vfmax (field w 23 1) (field w 14 7) (field w 7 7) (field w 0 7))
  | 25 => fixedBits (field w 21 2 == 0#2) (.vfcmp (field w 23 1) (field w 18 3) (field w 14 4) (field w 7 7) (field w 0 7))
  | 26 => fixedBits (field w 21 3 == 0#3 && field w 3 4 == 0#4) (.vxf (field w 14 7) (field w 7 7) (field w 0 3))
  | 27 => fixedBits (field w 23 1 == 0#1) (.vcvt (field w 21 2) (field w 14 7) (field w 7 7) (field w 4 3) (field w 1 3) (field w 0 1))
  | 28 => .ok (.vpk (field w 23 1) (field w 21 2) (field w 14 7) (field w 7 7) (field w 0 7))
  | 29 => .ok (.vupk (field w 23 1) (field w 21 2) (field w 14 7) (field w 7 7) (field w 0 7))
  | 30 => .ok (.vshfl (field w 23 1) (field w 21 2) (field w 14 7) (field w 7 7) (field w 0 7))
  | _ => .error .unassigned

/-- Class VI (R111): the operation number is bits 28:24. -/
def decodeVI (op : Nat) (w : Word) : Except DecodeReject Instr :=
  match op with
  | 0 => .ok (.vaddi (field w 17 7) (field w 10 7) (field w 0 10))
  | 1 => .ok (.vandi (field w 17 7) (field w 10 7) (field w 0 10))
  | 2 => .ok (.vori (field w 17 7) (field w 10 7) (field w 0 10))
  | 3 => .ok (.vxori (field w 17 7) (field w 10 7) (field w 0 10))
  | 4 => fixedBits (field w 5 5 == 0#5) (.vshli (field w 17 7) (field w 10 7) (field w 0 5))
  | 5 => fixedBits (field w 5 5 == 0#5) (.vshri (field w 17 7) (field w 10 7) (field w 0 5))
  | 6 => fixedBits (field w 5 5 == 0#5) (.vsrai (field w 17 7) (field w 10 7) (field w 0 5))
  | 7 => .ok (.vmuli (field w 17 7) (field w 10 7) (field w 0 10))
  | 8 => .ok (.vcmpi (field w 21 3) (field w 17 4) (field w 10 7) (field w 0 10))
  | 9 => .ok (.vldi (field w 17 7) (field w 0 17))
  | 10 => .ok (.vfldi (field w 17 7) (field w 0 17))
  | 11 => fixedBits (field w 14 3 == 0#3 && field w 2 8 == 0#8) (.vvote (field w 17 7) (field w 10 4) (field w 0 2))
  | 12 => fixedBits (field w 4 6 == 0#6) (.vred (field w 17 7) (field w 10 7) (field w 0 4))
  | 13 => fixedBits (field w 4 6 == 0#6) (.vscan (field w 17 7) (field w 10 7) (field w 0 4))
  | 14 => fixedBits (field w 7 3 == 0#3) (.vhadm (field w 17 7) (field w 10 7) (field w 0 7))
  | 15 => fixedBits (field w 10 7 == 0#7) (.vgetid (field w 17 7) (field w 0 10))
  | _ => .error .unassigned

/-- Class M (R112): the operation number is bits 28:24. -/
def decodeM (op : Nat) (w : Word) : Except DecodeReject Instr :=
  match op with
  | 0 => .ok (.ldgB8 (field w 22 2) (field w 21 1) (field w 14 7) (field w 7 7) (field w 0 7))
  | 1 => .ok (.ldgB16 (field w 22 2) (field w 21 1) (field w 14 7) (field w 7 7) (field w 0 7))
  | 2 => .ok (.ldgB32 (field w 22 2) (field w 21 1) (field w 14 7) (field w 7 7) (field w 0 7))
  | 3 => .ok (.ldgB64 (field w 22 2) (field w 21 1) (field w 14 7) (field w 7 7) (field w 0 7))
  | 4 => .ok (.ldgB128 (field w 22 2) (field w 21 1) (field w 14 7) (field w 7 7) (field w 0 7))
  | 5 => .ok (.stgB8 (field w 22 2) (field w 21 1) (field w 14 7) (field w 7 7) (field w 0 7))
  | 6 => .ok (.stgB16 (field w 22 2) (field w 21 1) (field w 14 7) (field w 7 7) (field w 0 7))
  | 7 => .ok (.stgB32 (field w 22 2) (field w 21 1) (field w 14 7) (field w 7 7) (field w 0 7))
  | 8 => .ok (.stgB64 (field w 22 2) (field w 21 1) (field w 14 7) (field w 7 7) (field w 0 7))
  | 9 => .ok (.stgB128 (field w 22 2) (field w 21 1) (field w 14 7) (field w 7 7) (field w 0 7))
  | 10 => .ok (.lds (field w 22 2) (field w 21 1) (field w 14 7) (field w 7 7) (field w 0 7))
  | 11 => .ok (.sts (field w 22 2) (field w 21 1) (field w 14 7) (field w 7 7) (field w 0 7))
  | 12 => .ok (.ldx (field w 22 2) (field w 21 1) (field w 14 7) (field w 7 7) (field w 3 4) (field w 0 3))
  | 13 => .ok (.stx (field w 22 2) (field w 21 1) (field w 14 7) (field w 7 7) (field w 3 4) (field w 0 3))
  | 14 => .ok (.ldp (field w 22 2) (field w 21 1) (field w 14 7) (field w 7 7) (field w 0 7))
  | 15 => .ok (.stp (field w 22 2) (field w 21 1) (field w 14 7) (field w 7 7) (field w 0 7))
  | 16 => .ok (.atomgI32 (field w 21 3) (field w 14 7) (field w 7 7) (field w 0 7))
  | 17 => .ok (.atomgN32 (field w 21 3) (field w 14 7) (field w 7 7) (field w 0 7))
  | 18 => .ok (.atomgF32 (field w 21 3) (field w 14 7) (field w 7 7) (field w 0 7))
  | 19 => .ok (.atomgI64 (field w 21 3) (field w 14 7) (field w 7 7) (field w 0 7))
  | 20 => .ok (.atomgN64 (field w 21 3) (field w 14 7) (field w 7 7) (field w 0 7))
  | 21 => .ok (.atomdI32 (field w 21 3) (field w 14 7) (field w 7 7) (field w 0 7))
  | 22 => .ok (.atomdI64 (field w 21 3) (field w 14 7) (field w 7 7) (field w 0 7))
  | 23 => .ok (.atomyI32 (field w 21 3) (field w 14 7) (field w 7 7) (field w 0 7))
  | 24 => .ok (.atomyI64 (field w 21 3) (field w 14 7) (field w 7 7) (field w 0 7))
  | 25 => .ok (.atomsI32 (field w 21 3) (field w 14 7) (field w 7 7) (field w 0 7))
  | 26 => .ok (.atomsN32 (field w 21 3) (field w 14 7) (field w 7 7) (field w 0 7))
  | 27 => .ok (.atomsF32 (field w 21 3) (field w 14 7) (field w 7 7) (field w 0 7))
  | 28 => .ok (.atomxI32 (field w 21 3) (field w 14 7) (field w 7 7) (field w 3 4) (field w 0 3))
  | 29 => .ok (.atomxI64 (field w 21 3) (field w 14 7) (field w 7 7) (field w 3 4) (field w 0 3))
  | _ => .error .unassigned

/-- Class C (R114): the operation number is bits 28:24. -/
def decodeC (op : Nat) (w : Word) : Except DecodeReject Instr :=
  match op with
  | 0 => .ok (.bra (field w 0 24))
  | 1 => .ok (.brd (field w 20 4) (field w 10 10) (field w 0 10))
  | 2 => .ok (.brany (field w 20 4) (field w 0 20))
  | 3 => .ok (.brall (field w 20 4) (field w 0 20))
  | 4 => .ok (.brz (field w 17 7) (field w 0 17))
  | 5 => .ok (.brnz (field w 17 7) (field w 0 17))
  | 6 => fixedBits (field w 14 10 == 0#10 && field w 0 7 == 0#7) (.jmpr (field w 7 7))
  | 7 => .ok (.call (field w 0 24))
  | 8 => fixedBits (field w 14 10 == 0#10 && field w 0 7 == 0#7) (.callr (field w 7 7))
  | 9 => fixedBits (field w 0 24 == 0#24) (.ret)
  | 10 => fixedBits (field w 12 5 == 0#5) (.loop (field w 17 7) (field w 0 12))
  | 11 => fixedBits (field w 0 24 == 0#24) (.lbrk)
  | 12 => fixedBits (field w 0 24 == 0#24) (.exit)
  | 13 => fixedBits (field w 16 8 == 0#8) (.trap (field w 0 16))
  | 14 => fixedBits (field w 0 24 == 0#24) (.nop)
  | 15 => fixedBits (field w 0 24 == 0#24) (.yield)
  | 16 => fixedBits (field w 0 24 == 0#24) (.brkpt)
  | _ => .error .unassigned

/-- Class A (R115): the operation number is bits 28:24. -/
def decodeA (op : Nat) (w : Word) : Except DecodeReject Instr :=
  match op with
  | 0 => fixedBits (field w 21 3 == 0#3 && field w 0 14 == 0#14) (.gang (field w 14 7))
  | 1 => fixedBits (field w 22 2 == 0#2 && field w 0 14 == 0#14) (.tclaim (field w 21 1) (field w 14 7))
  | 2 => fixedBits (field w 22 2 == 0#2 && field w 0 14 == 0#14) (.trel (field w 21 1) (field w 14 7))
  | 3 => fixedBits (field w 21 3 == 0#3 && field w 0 7 == 0#7) (.tfetch (field w 14 7) (field w 7 7))
  | 4 => .ok (.mma (field w 23 1) (field w 22 1) (field w 21 1) (field w 14 7) (field w 7 7) (field w 0 7))
  | 5 => .ok (.mmag (field w 23 1) (field w 22 1) (field w 21 1) (field w 14 7) (field w 7 7) (field w 0 7))
  | 6 => .ok (.mmsp (field w 23 1) (field w 22 1) (field w 21 1) (field w 14 7) (field w 7 7) (field w 0 7))
  | 7 => fixedBits (field w 21 3 == 0#3 && field w 0 14 == 0#14) (.accz (field w 14 7))
  | 8 => fixedBits (field w 21 3 == 0#3) (.drainmx (field w 14 7) (field w 7 7) (field w 0 7))
  | 9 => fixedBits (field w 21 3 == 0#3) (.drainv (field w 14 7) (field w 7 7) (field w 0 7))
  | 10 => fixedBits (field w 0 24 == 0#24) (.tcommit)
  | 11 => .ok (.cpy (field w 23 1) (field w 21 2) (field w 14 7) (field w 7 7) (field w 0 7))
  | 12 => .ok (.cpyg (field w 23 1) (field w 21 2) (field w 14 7) (field w 7 7) (field w 0 7))
  | 13 => fixedBits (field w 0 24 == 0#24) (.cpcommit)
  | 14 => fixedBits (field w 14 10 == 0#10 && field w 0 7 == 0#7) (.pft (field w 7 7))
  | _ => .error .unassigned

/-- Class Y (R116): the operation number is bits 28:24. -/
def decodeY (op : Nat) (w : Word) : Except DecodeReject Instr :=
  match op with
  | 0 => fixedBits (field w 0 4 == 0#4) (.wait (field w 18 6) (field w 12 6) (field w 8 4) (field w 4 4))
  | 1 => fixedBits (field w 0 20 == 0#20) (.fence (field w 22 2) (field w 20 2))
  | 2 => fixedBits (field w 0 7 == 0#7) (.bari (field w 14 10) (field w 7 7))
  | 3 => fixedBits (field w 0 7 == 0#7) (.bara (field w 14 10) (field w 7 7))
  | 4 => fixedBits (field w 0 7 == 0#7) (.barw (field w 14 10) (field w 7 7))
  | 5 => .ok (.bart (field w 14 10) (field w 7 7) (field w 0 7))
  | 6 => fixedBits (field w 1 2 == 0#2) (.launch (field w 17 7) (field w 10 7) (field w 3 7) (field w 0 1))
  | 7 => fixedBits (field w 0 17 == 0#17) (.joinw (field w 17 7))
  | 8 => fixedBits (field w 0 13 == 0#13) (.lxrd (field w 20 4) (field w 13 7))
  | 9 => fixedBits (field w 0 6 == 0#6) (.enq (field w 20 4) (field w 13 7) (field w 6 7))
  | 10 => fixedBits (field w 0 17 == 0#17) (.depdec (field w 17 7))
  | 11 => fixedBits (field w 0 20 == 0#20) (.winb (field w 20 4))
  | 12 => fixedBits (field w 0 17 == 0#17) (.fmt (field w 17 7))
  | 13 => fixedBits (field w 0 16 == 0#16) (.swpt (field w 16 8))
  | 14 => fixedBits (field w 0 24 == 0#24) (.rfe)
  | 15 => fixedBits (field w 0 10 == 0#10) (.mappg (field w 17 7) (field w 10 7))
  | 16 => fixedBits (field w 14 8 == 0#8 && field w 0 7 == 0#7) (.pref (field w 22 2) (field w 7 7))
  | 17 => fixedBits (field w 16 8 == 0#8) (.sleep (field w 0 16))
  | _ => .error .unassigned

/-- The instruction of a word (R107): bits 31:29 give the class. -/
def decode (w : Word) : Except DecodeReject Instr :=
  let op := (field w 24 5).toNat
  match (field w 29 3).toNat with
  | 0 => decodeS op w
  | 1 => decodeSI op w
  | 2 => decodeV op w
  | 3 => decodeVI op w
  | 4 => decodeM op w
  | 5 => decodeC op w
  | 6 => decodeA op w
  | _ => decodeY op w

/-- The instruction that begins a list of bytes, a little-endian word (R96), and the bytes after it. -/
def decodeBytes : List Byte → Except DecodeReject (Instr × List Byte)
  | b0 :: b1 :: b2 :: b3 :: rest => (decode (b3 ++ b2 ++ b1 ++ b0)).map (·, rest)
  | _ => .error .short

/-- The four bytes of a word in memory (R96). -/
def wordBytes (w : Word) : List Byte := [field w 0 8, field w 8 8, field w 16 8, field w 24 8]

/-- The instruction the decoder reads from a row's bits, laid out as the hardware stores them. -/
def decodeTableWord (nbits w : Nat) : Option Instr :=
  if nbits = 32 then (decodeBytes (wordBytes (BitVec.ofNat 32 w))).toOption.map (·.1) else none

/-- The word of an instruction (R135, R145, R148, R174, R191, R212); 0 for a step that no word encodes. -/
def encode : Instr → Word
  | .sadd w m d a b => 0x0#8 ++ w ++ m ++ d ++ a ++ b
  | .ssub w m d a b => 0x1#8 ++ w ++ m ++ d ++ a ++ b
  | .smul m d a b => 0x4#9 ++ m ++ d ++ a ++ b
  | .sdiv u d a b => 0x3#8 ++ u ++ 0x0#2 ++ d ++ a ++ b
  | .sand d a b => 0x20#11 ++ d ++ a ++ b
  | .sor d a b => 0x28#11 ++ d ++ a ++ b
  | .sxor d a b => 0x30#11 ++ d ++ a ++ b
  | .sandn d a b => 0x38#11 ++ d ++ a ++ b
  | .sshl d a b => 0x40#11 ++ d ++ a ++ b
  | .sshr d a b => 0x48#11 ++ d ++ a ++ b
  | .ssra d a b => 0x50#11 ++ d ++ a ++ b
  | .smin m d a b => 0x16#9 ++ m ++ d ++ a ++ b
  | .smax m d a b => 0x18#9 ++ m ++ d ++ a ++ b
  | .scmp c d a b => 0xD#8 ++ c ++ d ++ a ++ b
  | .sclz d a => 0x70#11 ++ d ++ a ++ 0x0#7
  | .spopc d a => 0x78#11 ++ d ++ a ++ 0x0#7
  | .srd d a => 0x80#11 ++ d ++ a ++ 0x0#7
  | .swr a => 0x440D#18 ++ a ++ 0x0#7
  | .saddi d a i => 0x20#8 ++ d ++ a ++ i
  | .sandi d a i => 0x21#8 ++ d ++ a ++ i
  | .sori d a i => 0x22#8 ++ d ++ a ++ i
  | .sxori d a i => 0x23#8 ++ d ++ a ++ i
  | .sshli d a n => 0x24#8 ++ d ++ a ++ 0x0#5 ++ n
  | .sshri d a n => 0x25#8 ++ d ++ a ++ 0x0#5 ++ n
  | .ssrai d a n => 0x26#8 ++ d ++ a ++ 0x0#5 ++ n
  | .smuli d a i => 0x27#8 ++ d ++ a ++ i
  | .scmpi d a c i => 0x28#8 ++ d ++ a ++ c ++ i
  | .sldi d i => 0x29#8 ++ d ++ i
  | .sldhi d i => 0x2A#8 ++ d ++ i
  | .vadd u m d a b => 0x40#8 ++ u ++ m ++ d ++ a ++ b
  | .vsub u m d a b => 0x41#8 ++ u ++ m ++ d ++ a ++ b
  | .vmul u m d a b => 0x42#8 ++ u ++ m ++ d ++ a ++ b
  | .vmad u m d a b => 0x43#8 ++ u ++ m ++ d ++ a ++ b
  | .vand u d a b => 0x44#8 ++ u ++ 0x0#2 ++ d ++ a ++ b
  | .vor u d a b => 0x45#8 ++ u ++ 0x0#2 ++ d ++ a ++ b
  | .vxor u d a b => 0x46#8 ++ u ++ 0x0#2 ++ d ++ a ++ b
  | .vshl u d a b => 0x47#8 ++ u ++ 0x0#2 ++ d ++ a ++ b
  | .vshr u d a b => 0x48#8 ++ u ++ 0x0#2 ++ d ++ a ++ b
  | .vsra u d a b => 0x49#8 ++ u ++ 0x0#2 ++ d ++ a ++ b
  | .vmin u m d a b => 0x4A#8 ++ u ++ m ++ d ++ a ++ b
  | .vmax u m d a b => 0x4B#8 ++ u ++ m ++ d ++ a ++ b
  | .vcmp u c p a b => 0x4C#8 ++ u ++ 0x0#2 ++ c ++ p ++ a ++ b
  | .vcmpn u c p a b => 0x4D#8 ++ u ++ 0x0#2 ++ c ++ p ++ a ++ b
  | .vsel d a p => 0x270#11 ++ d ++ a ++ 0x0#3 ++ p
  | .vbfe u m d a b => 0x4F#8 ++ u ++ m ++ d ++ a ++ b
  | .vbfi u d a b => 0x50#8 ++ u ++ 0x0#2 ++ d ++ a ++ b
  | .vpopc d a => 0x288#11 ++ d ++ a ++ 0x0#7
  | .vclz d a => 0x290#11 ++ d ++ a ++ 0x0#7
  | .vmov u d b => 0x53#8 ++ u ++ 0x0#2 ++ d ++ 0x0#7 ++ b
  | .vfadd u r d a b => 0x54#8 ++ u ++ r ++ d ++ a ++ b
  | .vfmul u r d a b => 0x55#8 ++ u ++ r ++ d ++ a ++ b
  | .vfma u r d a b => 0x56#8 ++ u ++ r ++ d ++ a ++ b
  | .vfsub u r d a b => 0x5F#8 ++ u ++ r ++ d ++ a ++ b
  | .vfmin u d a b => 0x57#8 ++ u ++ 0x0#2 ++ d ++ a ++ b
  | .vfmax u d a b => 0x58#8 ++ u ++ 0x0#2 ++ d ++ a ++ b
  | .vfcmp u c p a b => 0x59#8 ++ u ++ 0x0#2 ++ c ++ p ++ a ++ b
  | .vxf d a f => 0x2D0#11 ++ d ++ a ++ 0x0#4 ++ f
  | .vcvt r d a s t q => 0xB6#9 ++ r ++ d ++ a ++ s ++ t ++ q
  | .vpk u w d a b => 0x5C#8 ++ u ++ w ++ d ++ a ++ b
  | .vupk u w d a b => 0x5D#8 ++ u ++ w ++ d ++ a ++ b
  | .vshfl u m d a b => 0x5E#8 ++ u ++ m ++ d ++ a ++ b
  | .vaddi d a i => 0x60#8 ++ d ++ a ++ i
  | .vandi d a i => 0x61#8 ++ d ++ a ++ i
  | .vori d a i => 0x62#8 ++ d ++ a ++ i
  | .vxori d a i => 0x63#8 ++ d ++ a ++ i
  | .vshli d a n => 0x64#8 ++ d ++ a ++ 0x0#5 ++ n
  | .vshri d a n => 0x65#8 ++ d ++ a ++ 0x0#5 ++ n
  | .vsrai d a n => 0x66#8 ++ d ++ a ++ 0x0#5 ++ n
  | .vmuli d a i => 0x67#8 ++ d ++ a ++ i
  | .vcmpi c p a i => 0x68#8 ++ c ++ p ++ a ++ i
  | .vldi d i => 0x69#8 ++ d ++ i
  | .vfldi d i => 0x6A#8 ++ d ++ i
  | .vvote d p m => 0x6B#8 ++ d ++ 0x0#3 ++ p ++ 0x0#8 ++ m
  | .vred d a c => 0x6C#8 ++ d ++ a ++ 0x0#6 ++ c
  | .vscan d a c => 0x6D#8 ++ d ++ a ++ 0x0#6 ++ c
  | .vhadm d a s => 0x6E#8 ++ d ++ a ++ 0x0#3 ++ s
  | .vgetid d k => 0x6F#8 ++ d ++ 0x0#7 ++ k
  | .ldgB8 c k d a b => 0x80#8 ++ c ++ k ++ d ++ a ++ b
  | .ldgB16 c k d a b => 0x81#8 ++ c ++ k ++ d ++ a ++ b
  | .ldgB32 c k d a b => 0x82#8 ++ c ++ k ++ d ++ a ++ b
  | .ldgB64 c k d a b => 0x83#8 ++ c ++ k ++ d ++ a ++ b
  | .ldgB128 c k d a b => 0x84#8 ++ c ++ k ++ d ++ a ++ b
  | .stgB8 c k d a b => 0x85#8 ++ c ++ k ++ d ++ a ++ b
  | .stgB16 c k d a b => 0x86#8 ++ c ++ k ++ d ++ a ++ b
  | .stgB32 c k d a b => 0x87#8 ++ c ++ k ++ d ++ a ++ b
  | .stgB64 c k d a b => 0x88#8 ++ c ++ k ++ d ++ a ++ b
  | .stgB128 c k d a b => 0x89#8 ++ c ++ k ++ d ++ a ++ b
  | .lds z k d a b => 0x8A#8 ++ z ++ k ++ d ++ a ++ b
  | .sts z k d a b => 0x8B#8 ++ z ++ k ++ d ++ a ++ b
  | .ldx z k d a l i => 0x8C#8 ++ z ++ k ++ d ++ a ++ l ++ i
  | .stx z k d a l i => 0x8D#8 ++ z ++ k ++ d ++ a ++ l ++ i
  | .ldp z k d a b => 0x8E#8 ++ z ++ k ++ d ++ a ++ b
  | .stp z k d a b => 0x8F#8 ++ z ++ k ++ d ++ a ++ b
  | .atomgI32 c d a b => 0x90#8 ++ c ++ d ++ a ++ b
  | .atomgN32 c d a b => 0x91#8 ++ c ++ d ++ a ++ b
  | .atomgF32 c d a b => 0x92#8 ++ c ++ d ++ a ++ b
  | .atomgI64 c d a b => 0x93#8 ++ c ++ d ++ a ++ b
  | .atomgN64 c d a b => 0x94#8 ++ c ++ d ++ a ++ b
  | .atomdI32 c d a b => 0x95#8 ++ c ++ d ++ a ++ b
  | .atomdI64 c d a b => 0x96#8 ++ c ++ d ++ a ++ b
  | .atomyI32 c d a b => 0x97#8 ++ c ++ d ++ a ++ b
  | .atomyI64 c d a b => 0x98#8 ++ c ++ d ++ a ++ b
  | .atomsI32 c d a b => 0x99#8 ++ c ++ d ++ a ++ b
  | .atomsN32 c d a b => 0x9A#8 ++ c ++ d ++ a ++ b
  | .atomsF32 c d a b => 0x9B#8 ++ c ++ d ++ a ++ b
  | .atomxI32 c d a l i => 0x9C#8 ++ c ++ d ++ a ++ l ++ i
  | .atomxI64 c d a l i => 0x9D#8 ++ c ++ d ++ a ++ l ++ i
  | .bra d => 0xA0#8 ++ d
  | .brd p t j => 0xA1#8 ++ p ++ t ++ j
  | .brany p d => 0xA2#8 ++ p ++ d
  | .brall p d => 0xA3#8 ++ p ++ d
  | .brz s d => 0xA4#8 ++ s ++ d
  | .brnz s d => 0xA5#8 ++ s ++ d
  | .jmpr s => 0x29800#18 ++ s ++ 0x0#7
  | .call d => 0xA7#8 ++ d
  | .callr s => 0x2A000#18 ++ s ++ 0x0#7
  | .ret => 0xA9000000#32
  | .loop s b => 0xAA#8 ++ s ++ 0x0#5 ++ b
  | .lbrk => 0xAB000000#32
  | .exit => 0xAC000000#32
  | .trap c => 0xAD00#16 ++ c
  | .nop => 0xAE000000#32
  | .yield => 0xAF000000#32
  | .brkpt => 0xB0000000#32
  | .gang x => 0x600#11 ++ x ++ 0x0#14
  | .tclaim k x => 0x304#10 ++ k ++ x ++ 0x0#14
  | .trel k x => 0x308#10 ++ k ++ x ++ 0x0#14
  | .tfetch x y => 0x618#11 ++ x ++ y ++ 0x0#7
  | .mma h g c x y z => 0xC4#8 ++ h ++ g ++ c ++ x ++ y ++ z
  | .mmag h g c x y z => 0xC5#8 ++ h ++ g ++ c ++ x ++ y ++ z
  | .mmsp h g c x y z => 0xC6#8 ++ h ++ g ++ c ++ x ++ y ++ z
  | .accz x => 0x638#11 ++ x ++ 0x0#14
  | .drainmx x y z => 0x640#11 ++ x ++ y ++ z
  | .drainv x y z => 0x648#11 ++ x ++ y ++ z
  | .tcommit => 0xCA000000#32
  | .cpy b d x y z => 0xCB#8 ++ b ++ d ++ x ++ y ++ z
  | .cpyg b d x y z => 0xCC#8 ++ b ++ d ++ x ++ y ++ z
  | .cpcommit => 0xCD000000#32
  | .pft y => 0x33800#18 ++ y ++ 0x0#7
  | .wait l s c t => 0xE0#8 ++ l ++ s ++ c ++ t ++ 0x0#4
  | .fence k s => 0xE1#8 ++ k ++ s ++ 0x0#20
  | .bari n a => 0xE2#8 ++ n ++ a ++ 0x0#7
  | .bara n a => 0xE3#8 ++ n ++ a ++ 0x0#7
  | .barw n a => 0xE4#8 ++ n ++ a ++ 0x0#7
  | .bart n a b => 0xE5#8 ++ n ++ a ++ b
  | .launch d c f p => 0xE6#8 ++ d ++ c ++ f ++ 0x0#2 ++ p
  | .joinw s => 0xE7#8 ++ s ++ 0x0#17
  | .lxrd l d => 0xE8#8 ++ l ++ d ++ 0x0#13
  | .enq p v n => 0xE9#8 ++ p ++ v ++ n ++ 0x0#6
  | .depdec s => 0xEA#8 ++ s ++ 0x0#17
  | .winb b => 0xEB#8 ++ b ++ 0x0#20
  | .fmt s => 0xEC#8 ++ s ++ 0x0#17
  | .swpt n => 0xED#8 ++ n ++ 0x0#16
  | .rfe => 0xEE000000#32
  | .mappg a p => 0xEF#8 ++ a ++ p ++ 0x0#10
  | .pref l a => 0xF0#8 ++ l ++ 0x0#8 ++ a ++ 0x0#7
  | .sleep n => 0xF100#16 ++ n
  | _ => 0#32

end Sys2Proof
end

