-- ==== Sys2Proof/Machine/State.lean ====
section
/-!
DEFINITION. The state of the EX-812 as plain data: memory, warps, teams, grids, contexts, cores, engines, functions,
partitions, links, the sluice controller, and the state after reset.

A warp whose turn it is stands in `State.w`; all others stand in `State.rest`.
The fields `agenda`, `eventFirst`, `outbox`, `freeIx` and `nextId` are the model's own (log entries 1 and 2).
-/

namespace Sys2Proof.Machine

/-- A fault code of R323; 0 means no fault. -/
abbrev Code := BitVec 8

/-- Why the machine stops. The spec turns every condition of a program into a fault of R323, which is a next state. -/
inductive Fault where
  /-- A program counter in a reed slot; `step` raises it. R97 says that no fragment ever holds one: safe. -/
  | reedSlotPc
  deriving DecidableEq, Repr

/-- Why the model gives no meaning. -/
inductive Refusal where
  /-- An instruction without a meaning here, by its mnemonic; only an arm of `exec` raises it: safe. -/
  | notModelled (mnemonic : String)
  deriving DecidableEq, Repr

/-! ### Memory -/

/-- Bytes by home address (log 5): device DRAM at its physical address below 2^52, host memory from 2^56, the memory of peer
device d from 2^57 + d * 2^52. Listed addresses rise strictly and list no 0: an unlisted byte reads 0. -/
structure Memory where
  cells : List Host.Cell
  deriving DecidableEq, Repr

/-- Addresses rise strictly from a bound, and no listed byte is 0. -/
def Memory.wfFrom : Option Nat → List Host.Cell → Bool
  | _, [] => true
  | lo, (a, b) :: rest => (match lo with | none => true | some l => decide (l < a)) && b != 0#8 && Memory.wfFrom (some a) rest

/-- The canonical form of memory. -/
def Memory.wf (m : Memory) : Bool := Memory.wfFrom none m.cells

/-- What a 64-byte sector carries beside its bytes (R93, R94). -/
inductive Mark where
  /-- The check value will fail when it is verified. -/
  | failing
  /-- The sector is poisoned. -/
  | poisoned
  deriving DecidableEq, Repr

/-- A logical core of a partition (R7, R354). -/
structure CoreId where
  part : Nat
  n : Nat
  deriving DecidableEq, Repr

/-- A sector held in a core's L1 (R73, R74), by home address of its first byte. -/
structure L1Sector where
  core : CoreId
  ctx : Nat
  ha : Nat
  bytes : List Byte
  /-- A private line (write-back); false for a global line (write-through). -/
  priv : Bool
  dirty : Bool
  /-- The first candidate for eviction (R74). -/
  evictFirst : Bool
  deriving DecidableEq, Repr

/-- A line held in L2 or its far ways (R73, R75, R76). Its bytes are those of `State.mem`. -/
structure L2Line where
  ha : Nat
  ctx : Nat
  way : Nat
  dirty : Bool
  /-- Filled sectors, bit i for sector i. -/
  filled : Nat
  /-- Bytes written since the sector was last filled or merged, bit i for byte i. -/
  written : Nat
  far : Bool
  /-- The first candidate for eviction (R113). -/
  evictFirst : Bool
  /-- A line of a scratchpad backing area: it goes to the far ways before all others (R76, R85). -/
  backing : Bool
  deriving DecidableEq, Repr

/-- The structures of R69. -/
inductive TlbHome where
  | core (c : CoreId)
  | sector (part n : Nat)
  | fetcher (c : CoreId)
  | engine (part n : Nat)
  deriving DecidableEq, Repr

/-- A cached translation: the leaf entry as it was walked, the first address and the size of what it covers, and the first address
of the page whose entry it is (R67: an entry for a group of sixteen covers more than that page). -/
structure TlbEntry where
  home : TlbHome
  ctx : Nat
  page : Nat
  size : Nat
  base : Nat
  pte : BitVec 64
  pteHa : Nat
  deriving DecidableEq, Repr

/-- An entry of the frame ownership table (R77), for the 64 KiB frame of that number. -/
structure FrameOwner where
  frame : Nat
  valid : Bool
  retired : Bool
  owner : Nat
  /-- An uncorrectable error waits for the frame's next change of owner (R371). -/
  pending : Bool
  deriving DecidableEq, Repr

/-- A line as it stood at its first write after a checkpoint (R334). -/
structure UndoLine where
  core : CoreId
  ha : Nat
  bytes : List Byte
  marks : List (Nat × Mark)
  deriving DecidableEq, Repr

/-- One piece of a lane's memory request, within one sector: the lane, the virtual address or offset, the home address, which
bytes of the lane's data it is, and how many. -/
structure LaneReq where
  lane : Nat
  va : Nat
  ha : Nat
  off : Nat
  len : Nat
  deriving DecidableEq, Repr

/-- A store that has issued and has not been performed (R194). -/
structure PendStore where
  id : Nat
  warp : WarpId
  core : CoreId
  pc : Addr
  /-- The bytes of each lane. -/
  lanes : List (LaneReq × List Byte)
  /-- Accepted by the bank or link: no longer counted as outstanding (R286). -/
  acked : Bool
  /-- A store to host or peer memory: a checkpoint follows its performance (R209). -/
  irrevocable : Bool
  /-- An `.ef` store: the L2 line that it allocates is the first candidate for eviction (R113). -/
  evictFirst : Bool
  /-- Requests of its core that it takes (R194). -/
  reqs : Nat
  /-- The sectors whose bank has accepted it, each with the number of the next operation at that moment: it waits there for the engine
  operations that owned the line then (R286). -/
  taken : List (Nat × Nat)
  /-- The cycle of its issue (R364). -/
  since : Nat
  deriving DecidableEq, Repr

/-! ### Warps -/

/-- A fragment (R11): exactly four pieces of state, and the time at which it entered its slot (R33). -/
structure Fragment where
  pc : Addr
  mask : Mask
  fmt : Word
  record : Option Nat
  entered : Nat
  deriving DecidableEq, Repr

/-- What a program-counter slot holds (R14, R20). -/
inductive SlotState where
  | empty
  | live
  /-- The spilled fragment of this split-stack entry has the slot and is being read. -/
  | reading (entry : Nat)
  deriving DecidableEq, Repr

/-- A program-counter slot. -/
structure Slot where
  st : SlotState
  frag : Fragment
  deriving DecidableEq, Repr

/-- One of the 64 split-stack entries (R19). -/
inductive SplitEntry where
  | free
  | record (parent : Option Nat) (join : Addr) (full : Mask) (fmt : Word) (count : Nat)
  | spilled (frag : Fragment)
  deriving DecidableEq, Repr

/-- A hardware loop level (R182). -/
structure LoopLevel where
  live : Bool
  ls : Addr
  le : Addr
  lc : Word
  owner : Mask
  order : Nat
  deriving DecidableEq, Repr

/-- A display register with the class size of its frame (R261). -/
structure Display where
  base : Addr
  cls : Nat
  deriving DecidableEq, Repr

/-- How a load finds its data (R74, R113), or what an atomic does (R205). -/
inductive LoadKind where
  | cached
  | bypass
  | evictFirst
  /-- Atomic code, unsigned comparison, binary32, irrevocable (R209), operand and compare value of each lane in order. -/
  | atomic (code : Nat) (isUnsigned isFloat irrevocable : Bool) (opnds : List (BitVec 64 × BitVec 64))
  /-- The words that a `ret` at its program counter waits for (R181). -/
  | returnWords
  deriving DecidableEq, Repr

/-- A load or atomic that has issued and whose data is not yet written (R194). -/
structure Load where
  id : Nat
  pc : Addr
  size : Nat
  /-- The first destination register, numbered within the warp's block. -/
  dest : Nat
  lanes : List LaneReq
  kind : LoadKind
  /-- The data of each lane once captured (scratchpad and private accesses are performed at issue). -/
  data : Option (List (Nat × BitVec 128))
  /-- Flags that the data brings (R207). -/
  flags : Word
  /-- Requests of the core that it takes (R194). -/
  reqs : Nat
  /-- Its L1 tag lookup found no valid sector: it is predicted to miss (R22). -/
  missed : Bool
  /-- An atomic that its bank has accepted: no longer counted as an outstanding store (R194), with the number of the next operation at that
  moment (R286). -/
  accepted : Option Nat
  /-- The cycle of its issue (R364). -/
  since : Nat
  /-- Bytes of its lines that the device's own units have written since its bank accepted it: they come after it, and stand once it has been
  performed (R283, R286). -/
  later : List (Nat × Byte)
  deriving DecidableEq, Repr

/-- Why a warp whose instruction has not issued waits (R22); after an event it is looked whether it still waits. -/
inductive Hold where
  /-- A load's result is awaited, of a load that was predicted to miss or not. -/
  | loadResult (missed : Bool)
  | waitCount | barrier | children | token | lease | pageIn (pages : List Nat) | ownedLine | link | rangeTracker
  | queueFull | storeCount | loadCount | irrevocable | batches | copies | latch
  deriving DecidableEq, Repr

/-- The handler save (R328). -/
structure HandlerSave where
  slot : Fin 2
  frag : Fragment
  wbase : Nat
  bank : Vector Word 16
  /-- The fault being handled. -/
  code : Code
  va : Nat
  mask : Mask
  info : Word
  /-- No user fragment: the handler runs for an operation after every thread has exited. -/
  noUser : Bool
  /-- The matrix operation to perform again after `rfe` (R332). -/
  op : Option Nat
  deriving DecidableEq, Repr

/-- A matrix-operation fault that waits for delivery (R219, R331). -/
structure OpFault where
  op : Nat
  opcode : Nat
  code : Code
  va : Nat
  write : Bool
  deriving DecidableEq, Repr

/-- Where a copy's token or a batch of operations stands. -/
structure Batch where
  ops : List Nat
  deriving DecidableEq, Repr

/-- Which items of a warp have an entry in an undo region since the latest checkpoint (R334): its vector registers, scalars, predicates, its state
block, and the bytes of the entries that stand in the regions of cores which it has left since. -/
structure WarpLog where
  vectors : BitVec 256
  scalars : BitVec 128
  preds : BitVec 16
  block : Bool
  away : List (CoreId × Nat)
  deriving DecidableEq, Repr

/-- Nothing has been written since the checkpoint. -/
def WarpLog.empty : WarpLog := ⟨0, 0, 0, false, []⟩

/-- A warp (R8 to R11). -/
structure Warp where
  id : WarpId
  present : Bool
  core : CoreId
  shuttle : Nat
  active : Bool
  pendingSince : Nat
  /-- The count of R23: cycles since the warp became active in which a ready pending warp has waited. -/
  count : Nat
  /-- s0 to s127 (128 scalars; a legacy wave uses 64 of them, R31). -/
  scalars : Vector Word 128
  /-- The registers of the warp's block; numbers at or above `valloc` are outside it. -/
  vectors : Vector Lanes 256
  valloc : Nat
  blockBase : Nat
  preds : Vector Mask 16
  wbase : Nat
  gang : Word
  nflags : Word
  level : Nat
  display : Vector Display 10
  /-- The slot of the instruction that is issuing. -/
  cur : Fin 2
  /-- The slot that issued last (R14). -/
  lastSlot : Fin 2
  slots : Vector Slot 2
  split : Vector SplitEntry 64
  /-- Spill queue of the warp, or of wave 0 and wave 1 (R19, R31): entry numbers from head to tail. -/
  spill : Vector (List Nat) 2
  /-- The count of R33 of each queue: cycles that have passed while it was not empty and the warp was resident. -/
  rotation : Vector Nat 2
  exited : Mask
  depth : Vector Nat 32
  loops : Vector LoopLevel 4
  loopOrder : Nat
  clockHi : Word
  loads : List Load
  openOps : List Nat
  tileBatches : List Batch
  openCopies : List Nat
  copyBatches : List Batch
  /-- Vector registers of the block that an operation will write (R218): register and operation. -/
  leases : List (Nat × Nat)
  /-- Scalars that are tokens of incomplete copies (R217): scalar and copy. -/
  tokens : List (Nat × Nat)
  super : Bool
  handler : Option HandlerSave
  faultInfo : Word
  faultVa : Nat
  faultMask : Mask
  opFaults : List OpFault
  /-- Why the next instruction of each slot waits, as found when it was last tried. -/
  hold : Vector (Option Hold) 2
  /-- The yield condition of R22 of each slot, from a `yield` or a yield hint until the slot issues again. -/
  yielded : Vector Bool 2
  /-- Scratchpad pages of the instruction of each slot that is to be replayed after a page-in (R84). -/
  replay : Vector (List Nat) 2
  /-- Since when the fetch or the access of each slot has waited for a link that can carry it (R364). -/
  linkWait : Vector (Option Nat) 2
  /-- Held in `joinw` since this moment (R246, R259). -/
  joining : Option Nat
  sleepUntil : Option Nat
  /-- Held at a switch point (R252). -/
  atSwitch : Option Nat
  /-- An irrevocable action has issued and its checkpoint has not ended (R335). -/
  awaitCheckpoint : Bool
  stopped : Bool
  /-- A fault record of this warp was written since the last checkpoint (R339). -/
  recordStands : Bool
  legacy : Bool
  hinted : Bool
  privBase : Nat
  privsz : Nat
  /-- The entries that undo regions hold of it (R334). -/
  logged : WarpLog
  deriving DecidableEq, Repr

/-- A fragment with nothing in it. -/
def Fragment.none : Fragment := ⟨0, 0, 0, Option.none, 0⟩

/-- A vacant place: every register zero (log 3). -/
def Warp.vacant : Warp where
  id := ⟨0, 0, 0, 0⟩
  present := false
  core := ⟨0, 0⟩
  shuttle := 0
  active := false
  pendingSince := 0
  count := 0
  scalars := Vector.replicate 128 0
  vectors := Vector.replicate 256 (Vector.replicate 32 0)
  valloc := 16
  blockBase := 0
  preds := Vector.replicate 16 0
  wbase := 0
  gang := 0
  nflags := 0
  level := 0
  display := Vector.replicate 10 ⟨0, 0⟩
  cur := 0
  lastSlot := 1
  slots := Vector.replicate 2 ⟨.empty, Fragment.none⟩
  split := Vector.replicate 64 .free
  spill := Vector.replicate 2 []
  rotation := Vector.replicate 2 0
  exited := 0
  depth := Vector.replicate 32 0
  loops := Vector.replicate 4 ⟨false, 0, 0, 0, 0, 0⟩
  loopOrder := 0
  clockHi := 0
  loads := []
  openOps := []
  tileBatches := []
  openCopies := []
  copyBatches := []
  leases := []
  tokens := []
  super := false
  handler := none
  faultInfo := 0
  faultVa := 0
  faultMask := 0
  opFaults := []
  hold := Vector.replicate 2 none
  yielded := Vector.replicate 2 false
  replay := Vector.replicate 2 []
  linkWait := Vector.replicate 2 none
  joining := none
  sleepUntil := none
  atSwitch := none
  awaitCheckpoint := false
  stopped := false
  recordStands := false
  legacy := false
  hinted := false
  privBase := 0
  privsz := 0
  logged := WarpLog.empty

/-! ### Teams, grids, contexts -/

/-- A named barrier (R242). -/
structure Barrier where
  count : Nat
  arrivals : Nat
  phase : BitVec 16
  deriving DecidableEq, Repr

/-- Where a virtual scratchpad page is (R83). -/
inductive PageState where
  | zero
  | resident
  | remote (core : CoreId)
  | backed
  deriving DecidableEq, Repr

/-- A virtual scratchpad page: its state, the bytes it holds while resident or remote, whether it was written since its page-in and whether
it was ever written, and the poison marks of its 32 sectors with the code of their next access (R83, R84). -/
structure Page where
  n : Nat
  st : PageState
  bytes : List Byte
  dirty : Bool
  filled : Bool
  marks : List (Nat × Code)
  /-- An eviction lost the contents; the next page-in treats every sector with this code (R84 step 2). -/
  lost : Option Code
  /-- Time of the latest access, for least recently used. -/
  used : Nat
  /-- The core whose undo region keeps its bytes of the latest checkpoint (R334). -/
  logged : Option CoreId
  deriving DecidableEq, Repr

/-- A child of a join set: its grid, and its outcome once retired (status, code, order of retirement). -/
structure JoinChild where
  grid : Nat
  outcome : Option (Nat × Code × Nat)
  deriving DecidableEq, Repr

/-- Where a grid comes from (R304). -/
inductive Source where
  | queue (vf q : Nat)
  | node (ctx n : Nat)
  | tasks (ctx : Nat)
  deriving DecidableEq, Repr

/-- A candidate of a source (R304): the grid with the number of its next team, or, with grid 0, the task. -/
structure CandidateId where
  source : Source
  grid : Nat
  next : Nat
  deriving DecidableEq, Repr

/-- A posted switch request (R252, R320). -/
structure SwitchReq where
  /-- The reserved candidate for which a lean request was posted (R320). -/
  candidate : Option CandidateId
  target : Nat
  lean : Bool
  posted : Nat
  /-- Warps that had not retired when it was posted. -/
  warps : List Nat
  /-- The switch point and time of the first arrival. -/
  point : Option (Nat × Nat)
  arrived : List Nat
  /-- The team has been moved because no lean switch was taken (R340). -/
  moved : Bool
  deriving DecidableEq, Repr

/-- How a resident team stands. -/
inductive TeamState where
  | running
  | migrating (target : CoreId) (h : Nat) (since : Nat)
  | saved
  deriving DecidableEq, Repr

/-- A placed team. -/
structure Team where
  id : TeamId
  core : CoreId
  h : Nat
  variant : Nat
  slot : Nat
  warps : Nat
  order : Nat
  /-- The declared scratchpad (R305), and it rounded up (R82). -/
  spadDecl : Nat
  spadsz : Nat
  privsz : Nat
  barriers : List Barrier
  pages : List Page
  slotMap : List (Nat × Nat)
  accMap : List (Nat × Nat)
  joinSet : List JoinChild
  request : Option SwitchReq
  st : TeamState
  /-- Warp numbers that have retired. -/
  retired : List Nat
  /-- Home addresses of the save record's sectors while saved, and whether its check value still matches (R338). -/
  saveHas : List Nat
  saveOk : Bool
  deriving DecidableEq, Repr

/-- A switch-point record (R391). -/
structure SwitchPoint where
  number : Nat
  reshape : Bool
  entry : Addr
  vcarry : List (Nat × Nat)
  scarry : List (Nat × Nat)
  deriving DecidableEq, Repr

/-- A variant entry (R390). -/
structure Variant where
  entry : Addr
  regs : Nat
  warps : Nat
  spad : Nat
  privsz : Nat
  barriers : Nat
  points : List SwitchPoint
  deriving DecidableEq, Repr

/-- A grid (R8, R263). -/
structure Grid where
  ctx : Nat
  id : Nat
  parent : Option Nat
  /-- The team whose join set holds it, if any. -/
  launcher : Option Nat
  kernel : Nat
  /-- The header reached (R394). -/
  header : Nat
  variants : List Variant
  legacy : Bool
  hinted : Bool
  frame : Nat
  cls : Nat
  level : Nat
  display : List Display
  status : Nat
  children : Nat
  teamsLive : Nat
  teams : Nat
  nextTeam : Nat
  coop : Bool
  source : Source
  /-- Level of scheduling (R304) and the order in which grids became pending. -/
  prio : Nat
  order : Nat
  /-- Sequence number and signal address of its launch packet. -/
  packet : Option (BitVec 32 × Nat)
  task : Option Nat
  /-- Threads of the one warp of a node grid (R315). -/
  firstMask : Mask
  waiter : Option (Nat × Nat)
  faultAddr : Nat
  faultSeen : Bool
  code : Code
  killed : Bool
  /-- Address of the fault record that began the termination; 0 when none was written. -/
  recordAddr : Nat
  deriving DecidableEq, Repr

/-- The frame pool (R257): base, number of frames of each class, free frame addresses of each class. -/
structure FramePool where
  base : Nat
  counts : List Nat
  free : List (List Nat)
  deriving DecidableEq, Repr

/-- A node of the work graph with its gatherer (R314, R315); records are lists of 16 bytes with their arrival times. -/
structure Node where
  n : Nat
  kernel : Nat
  frame : Nat
  timerUs : Nat
  key : Option Nat
  level : Nat
  records : List (Nat × List Byte)
  /-- Batches that have collected or lapsed and wait for a frame: number of records of each. -/
  due : List Nat
  deriving DecidableEq, Repr

/-- A 64-byte tile record as one unit (R89); `ok` tells that it was read without a fault. -/
structure TileRecord where
  base : Nat
  baseHigh : Nat
  owner : Nat
  valid : Bool
  ownerZero : Nat
  format : Nat
  packing : Nat
  formZero : Nat
  rank : Nat
  dims : List Nat
  strides : List Nat
  rows : Nat
  cols : Nat
  scale : Nat
  rot : Nat
  zero : Nat
  seed : Nat
  deriving DecidableEq, Repr

/-- A tile of element codes with its format and, in scale modes 1 and 2, its scales (R223). -/
structure Tile where
  format : Nat
  rows : Nat
  cols : Nat
  codes : List (List Nat)
  scaleMode : Nat
  scaleRows : Nat
  scaleCols : Nat
  scales : List (List Nat)
  deriving DecidableEq, Repr

/-- Where a matrix operand comes from: physical slots, or a record with its tile coordinates and scale record. -/
inductive MatrixSource where
  | slot (phys : List Nat)
  | handle (r : TileRecord) (row col : Nat) (scale : Option TileRecord)
  deriving DecidableEq, Repr

/-- What a queued matrix operation does, with everything it captured (R214). -/
inductive MatrixWork where
  | tfetch (slots : List Nat) (r : TileRecord) (row col : Nat) (scale : Option TileRecord)
  /-- mma, mmag, mmsp: accumulator, zero first, A, the bands with their B, the metadata of mmsp. -/
  | multiply (acc : Nat) (zero : Bool) (a : MatrixSource) (bs : List (Nat × Nat × MatrixSource))
      (metadata : Option (TileRecord × Nat × Nat))
  | accz (acc : Nat)
  | drainmx (acc : Nat) (r : TileRecord) (row col : Nat) (scale : Option (TileRecord × Nat × Nat))
  | drainv (acc row first : Nat)
  deriving DecidableEq, Repr

/-- A queued matrix operation (R214). -/
structure MatrixOp where
  id : Nat
  ctx : Nat
  core : CoreId
  warp : WarpId
  opcode : Nat
  fmt : Word
  work : MatrixWork
  super : Bool
  done : Bool
  /-- It faulted and waits for the handler's `rfe` (R332). -/
  faulted : Bool
  /-- Lines it owns from acceptance, and lines it reads (R286), by home address. -/
  lines : List Nat
  reads : List Nat
  /-- The cycle of its acceptance (R364). -/
  since : Nat
  deriving DecidableEq, Repr

/-- A side of a copy (R232, R237): a tile by record, a scratchpad range, or rows by address. -/
inductive CopySide where
  | tile (r : TileRecord) (row col : Nat) (scale : Option TileRecord)
  | spad (offset len : Nat)
  | rows (addrs : List (Nat × Nat)) (len : Nat)
  deriving DecidableEq, Repr

/-- A copy (R216, R217, R235). -/
structure Copy where
  id : Nat
  warp : WarpId
  core : CoreId
  engine : Nat
  token : Option Nat
  barrier : Option Nat
  src : CopySide
  dst : CopySide
  super : Bool
  performed : Bool
  code : Code
  flags : Word
  lines : List Nat
  reads : List Nat
  /-- The cycle of its acceptance (R364). -/
  since : Nat
  deriving DecidableEq, Repr

/-- A rendezvous latch (R29): who arrived, with its word, program counter and registers' values. -/
structure Latch where
  core : CoreId
  team : TeamId
  gang : Word
  arrived : List (Nat × Instr × Fin 2)
  deriving DecidableEq, Repr

/-- An operand slot of a core (R222, R223). -/
structure OperandSlot where
  claim : Option TeamId
  release : Bool
  tile : Option Tile
  /-- The slot is the second of a two-slot tile. -/
  second : Bool
  deriving DecidableEq, Repr

/-- An accumulator tile of a core (R222). -/
structure Accumulator where
  claim : Option TeamId
  release : Bool
  lastCtx : Option Nat
  data : Vector (Vector Word 128) 128
  /-- The core whose undo region keeps its data of the latest checkpoint of the context that holds or last held it (R334). -/
  logged : Option CoreId
  deriving DecidableEq, Repr

/-- A block in a core's instruction buffer (R175): the reed word and seven instruction words. -/
structure CodeBlock where
  ctx : Nat
  grid : Nat
  addr : Nat
  words : List Word
  deriving DecidableEq, Repr

/-- A tile record as the fetcher of a core caches it (R214): the context, its handle and its 64 bytes. -/
structure HeldRecord where
  ctx : Nat
  handle : Nat
  bytes : List Byte
  deriving DecidableEq, Repr

/-- What a core holds beside its warps. -/
structure Core where
  id : CoreId
  slots : Vector OperandSlot 16
  accs : Vector Accumulator 4
  ibuf : List CodeBlock
  lastShuttle : Nat
  /-- The shuttle file that the compaction unit moves (R26), with the new bases of its warps. -/
  compacting : Option (Nat × List (WarpId × Nat))
  /-- Since when the core's free resources have stood as they are (R320). -/
  freeSince : Nat
  /-- The 64 records that its fetcher caches, the latest first (R214). -/
  records : List HeldRecord
  deriving DecidableEq, Repr

/-- A core of which nothing has been used. -/
def Core.fresh (id : CoreId) : Core where
  id := id
  slots := Vector.replicate 16 ⟨none, false, none, false⟩
  accs := Vector.replicate 4 ⟨none, false, none, Vector.replicate 128 (Vector.replicate 128 0), none⟩
  ibuf := []
  lastShuttle := 0
  compacting := none
  freeSince := 0
  records := []

/-- A page pool (R254, R299). -/
structure PagePool where
  n : Nat
  write : Bool
  exec : Bool
  super : Bool
  frames : List Nat
  deriving DecidableEq, Repr

/-- The state of a context at its latest checkpoint (R333). -/
structure Snapshot where
  warps : List Warp
  teams : List Team
  slots : List (CoreId × Nat × OperandSlot)
  accs : List (CoreId × Nat × Accumulator)
  ops : List MatrixOp
  stores : List PendStore
  pools : List PagePool
  /-- Copies with a smaller identifier were issued before the checkpoint (R337). -/
  nextCopy : Nat
  /-- Copies issued before the checkpoint that have completed since. -/
  landed : List Copy
  deriving DecidableEq, Repr

/-- A context. -/
structure Ctx where
  id : Nat
  vf : Nat
  failed : Bool
  pageTable : Nat
  recordTable : Nat
  backing : Nat
  privRegion : Nat
  teamSlots : Nat
  framePool : Option FramePool
  pagePools : List PagePool
  nodes : List Node
  keyTable : Nat
  /-- Base, size, level of the task table (R317). -/
  taskTable : Option (Nat × Nat × Nat)
  /-- Ready tasks in order: task, priority, cycle of arrival (R318). -/
  ready : List (Nat × Nat × Nat)
  prevGrid : Nat
  snapshot : Snapshot
  checkpointAt : Nat
  /-- A checkpoint is under way: no warp of the context issues (R333). -/
  paused : Bool
  undo : List UndoLine
  /-- Bytes of undo entries of its warps that have retired and of pages that have gone since the checkpoint, by core (R334). -/
  undoGone : List (CoreId × Nat)
  /-- The context's teams are in their save records (R336). -/
  savedOut : Bool
  deriving DecidableEq, Repr

/-- A snapshot of nothing. -/
def Snapshot.empty : Snapshot := ⟨[], [], [], [], [], [], [], 0, []⟩

/-! ### Front end, functions, partitions, links, security -/

/-- A queue of a virtual function (R295 to R298). -/
structure Queue where
  n : Nat
  ctx : Nat
  pasid : Option Nat
  status : Nat
  level : Nat
  weight : Nat
  aging : Nat
  expected : BitVec 32
  buffer : List (List Byte)
  deriving DecidableEq, Repr

/-- The states of a TDISP interface (R357, R363). -/
inductive TdispState where
  | unlocked | locked | run | error
  deriving DecidableEq, Repr

/-- How the distributor has treated a source (R308, R309). -/
structure Grant where
  source : Source
  passed : Nat
  aged : Option Nat
  used : Nat
  deriving DecidableEq, Repr

/-- What the entries 0x0001 to 0x0004 of a function's capability list report; it changes only at the events of R378. -/
structure Capabilities where
  stepping : Nat
  roles : BitVec 8
  cores : Nat
  linkWidth : Nat
  linkRate : Nat
  device : Nat
  packingOk : Bool
  first : Nat
  size : Nat
  groups : List Nat
  quantumUs : Nat
  checkpointUs : Nat
  /-- B_i of R312, in microseconds. -/
  boundUs : Nat
  retired : Nat
  quarantined : Nat
  deriving DecidableEq, Repr

/-- Entries of which nothing has been published yet. -/
def Capabilities.empty : Capabilities := ⟨0, 0, 0, 0, 0, 0, false, 0, 0, [], 0, 0, 0, 0, 0⟩

/-- A virtual function. -/
structure Vf where
  n : Nat
  enabled : Bool
  part : Option Nat
  portalOpen : Bool
  masked : List Feature
  /-- Masks that take effect at the next turn (R348). -/
  pendingMask : List (Feature × Bool)
  tdisp : TdispState
  quantumUs : Nat
  /-- The deficit with which the function's turn began, or was renewed (R311). -/
  deficitUs : Nat
  caps : Capabilities
  grants : List Grant
  /-- The source whose turn in the round-robin it is, by level. -/
  pointers : List (Nat × Source)
  /-- The candidates of aged sources whose teams fit nowhere (R309). -/
  reserved : List CandidateId
  queues : List Queue
  msixTable : List (Nat × Byte)
  msixPending : List Nat
  wayMask : BitVec 16
  deriving DecidableEq, Repr

/-- A function of which nothing has been set: without a partition, the portal closed, the quantum 4 ms (R311). -/
def Vf.new (n : Nat) : Vf where
  n := n
  enabled := true
  part := none
  portalOpen := false
  masked := []
  pendingMask := []
  tdisp := .unlocked
  quantumUs := 4000
  deficitUs := 0
  caps := Capabilities.empty
  grants := []
  pointers := []
  reserved := []
  queues := []
  msixTable := []
  msixPending := []
  wayMask := 0xFFFF#16

/-- An entry of a place table (R359). -/
structure PlaceEntry where
  logical : Nat
  physical : Nat
  valid : Bool
  deriving DecidableEq, Repr

/-- A partition (R355, R356, R359, R361). -/
structure Partition where
  n : Nat
  first : Nat
  size : Nat
  coreTable : List PlaceEntry
  clusterTable : List PlaceEntry
  engineTable : List PlaceEntry
  groups : List Nat
  checkpointUs : Nat
  /-- The virtual function whose turn it is (R311). -/
  turn : Option Nat
  /-- When that turn began, or was renewed. -/
  turnSince : Nat
  /-- The function whose turn was last. -/
  lastTurn : Nat
  /-- The core of the previous placement. -/
  prevCore : Option Nat
  deriving DecidableEq, Repr

/-- A role change under way (R353). -/
structure RoleChange where
  old : BitVec 8
  new : BitVec 8
  deriving DecidableEq, Repr

/-- A change of a place table that waits for its core or engine to be free (R359, R380). -/
structure PlaceWrite where
  part : Nat
  table : PlaceTable
  entry : PlaceEntry
  deriving DecidableEq, Repr

/-- An IDE stream (R362). -/
structure IdeStream where
  n : Nat
  key : BitVec 256
  running : Bool
  deriving DecidableEq, Repr

/-- The SPDM state of the controller (R368). -/
structure Spdm where
  version : Bool
  capabilities : Bool
  algorithms : Bool
  /-- A key exchange has been answered and FINISH is awaited; mutual authentication was asked for. -/
  handshake : Option Bool
  session : Bool
  keyPhase : Nat
  streams : List IdeStream
  deriving DecidableEq, Repr

/-- The sluice controller and what it keeps (R350 to R353, R360, R366 to R374). -/
structure Sluice where
  started : Bool
  recovery : Bool
  hostLink : Bool
  packingOk : Bool
  /-- A test image runs (R41). -/
  testImage : Bool
  trim : Nat
  /-- The identity key; none before an accepted record (R2, R368). -/
  identityKey : Option Nat
  /-- What measurement blocks 1 to 3 measure (R368). -/
  sluiceImage : List Byte
  heddleImage : List Byte
  configRecord : List Byte
  /-- The trained width and rate of the host link (R362). -/
  linkWidth : Nat
  linkRate : Nat
  roles : BitVec 8
  change : Option RoleChange
  stoppedPlies : List Nat
  version : Nat
  minVersion : Nat
  counter : Nat
  retired : List Nat
  /-- Defective or retired physical cores: ply, sector, index. -/
  defects : List (Nat × Nat × Nat)
  /-- Absent logical cores. -/
  absent : List CoreId
  stepping : Nat
  device : Nat
  /-- Corrected errors of each bank and of each core (R370). -/
  corrected : List (Nat × Nat)
  correctedCores : List (CoreId × Nat)
  /-- Failed verifications of the old value at evictions, of each bank (R94). -/
  evictionFailures : List (Nat × Nat)
  /-- Ways that no line is filled into again: bank and way (R372). -/
  quarantined : List (Nat × Nat)
  thermalEvents : Nat
  pendingPlaces : List PlaceWrite
  /-- Assignments of copy-engine groups that wait: group and partition (R359, R361). -/
  pendingGroups : List (Nat × Nat)
  /-- Cores with a TLB or L1 way out of use (R371), each with the number of its ways. -/
  quarantinedCores : List (CoreId × Nat)
  /-- L2 TLBs of sectors and walk-ahead TLBs with a way out of use (R371), each with the number of its ways. -/
  quarantinedTlbs : List (TlbHome × Nat)
  /-- Functions whose reset waits for the end of a role change (R380), and whether their interface is then in the error state (R363). -/
  pendingResets : List (Nat × Bool)
  deriving DecidableEq, Repr

/-- A weft link (R364). -/
structure WeftLink where
  n : Nat
  up : Bool
  replays : Nat
  deriving DecidableEq, Repr

/-- How the host or a peer device answers requests to a sector of its memory (R72, R80, R94, R208): the environment's choice. -/
structure FarMark where
  ha : Nat
  /-- The code that a request receives; with `atomicsOnly`, only an atomic receives it. -/
  code : Code
  atomicsOnly : Bool
  deriving DecidableEq, Repr

/-- What leaves the device (log 1). -/
inductive OutMsg where
  /-- The completion of a write to a portal page (R297). -/
  | portalSuccess (vf : Nat)
  | portalRetry (vf : Nat)
  | unsupportedRequest (vf : Nat)
  | msix (vf vector : Nat)
  /-- Data of a read by the host, with the poison bit (R375). -/
  | readData (bytes : List Byte) (poisoned : Bool)
  /-- Data for a peer, with the poison bit (R364, R375). -/
  | weftAnswer (bytes : List Byte) (poisoned : Bool)
  | weftRefused (code : Code)
  /-- The notice to the peers that a context was reset (R347). -/
  | remoteAbort (ctx : Nat)
  | completer (ok : Bool)
  /-- Answers to management commands and security messages. -/
  | commandDone (value : List Nat)
  | commandError
  /-- The digest of a measurement block: its index and what it measures. -/
  | measurement (index : Nat) (digest : BitVec 512)
  | certificate (bytes : List Byte)
  | signed (signature : BitVec 1056)
  | spdm (request : Nat) (answer : BitVec 64)
  /-- Events to the physical function. -/
  | thermalEvent (ply : Nat)
  | bankDegraded (ha : Nat)
  | listFull
  /-- A write without PASID to a host bus address (R295). -/
  | hostBusWrite (address : Nat) (bytes : List Byte)
  deriving DecidableEq, Repr

/-- Which agent moves next (log 1). -/
inductive Move where
  /-- A step of the device, or an instruction's events, by name. -/
  | event (i : Instr)
  /-- The warp issues from the slot. -/
  | issue (w : WarpId) (slot : Fin 2)
  /-- The core drops or writes back the L1 sector. -/
  | evictL1 (core : CoreId) (ha : Nat)
  /-- The bank drops or writes back the line. -/
  | evictL2 (ha : Nat) (far : Bool)
  /-- The translation of the page is dropped wherever the context has it. -/
  | dropTlb (ctx page : Nat)
  /-- The code block is dropped from the core's instruction buffer. -/
  | dropCode (core : CoreId) (addr : Nat)
  /-- The host reads bytes of a function's BAR (R363). -/
  | barRead (vf offset size : Nat)
  /-- The host or a peer writes its own memory. -/
  | farWrite (ha : Nat) (bytes : List Byte)
  /-- How the host or a peer answers requests to a sector from now on; code 0 for normal answers. -/
  | farAnswer (m : FarMark)
  deriving DecidableEq, Repr

/-- The machine. -/
structure State where
  clock : Nat
  mem : Memory
  marks : List (Nat × Mark)
  l1 : List L1Sector
  l2 : List L2Line
  tlb : List TlbEntry
  owners : List FrameOwner
  far : List FarMark
  w : Warp
  rest : List Warp
  teams : List Team
  grids : List Grid
  ctxs : List Ctx
  cores : List Core
  stores : List PendStore
  ops : List MatrixOp
  copies : List Copy
  latches : List Latch
  vfs : List Vf
  /-- The physical function (R362, R363): its BAR; it spans all partitions (R357). -/
  pf : Vf
  parts : List Partition
  links : List WeftLink
  /-- When a link last went down or a route was last written (R364, R365). -/
  cutAt : Nat
  /-- The route table and the ingress table (R365). -/
  routes : List (Nat × List Nat)
  ingress : List (Nat × Nat)
  sluice : Sluice
  spdm : Spdm
  outbox : List OutMsg
  /-- The queues whose head packets the heddle core's current round has still to run: function and queue (R302). -/
  round : List (Nat × Nat)
  /-- The cores that have issued in the present cycle, and whether an `enq` or a `depdec` (R13, R315, R318). -/
  issued : List (CoreId × Bool)
  /-- A grid has retired or begun its termination in the present cycle: the next step comes in a later one (R266, R267). -/
  spent : Bool
  /-- The warps that a fault has stopped in the present cycle (R267). -/
  faulted : List WarpId
  /-- Events whose own accesses no link can carry, each with the moment since when it waits (R364). -/
  unitWaits : List (Instr × Nat)
  agenda : List Move
  /-- The device's own events go before the next instruction. -/
  eventFirst : Bool
  freeIx : Nat
  nextId : Nat
  deriving DecidableEq, Repr

/-- The sluice controller right after reset; R367 fills it at START_UP. The mask is the illustration of R351 (log 3). -/
def Sluice.reset : Sluice where
  started := false
  recovery := false
  hostLink := false
  packingOk := false
  testImage := false
  trim := 0
  identityKey := none
  sluiceImage := []
  heddleImage := []
  configRecord := []
  linkWidth := 0
  linkRate := 0
  roles := 0b11010110#8
  change := none
  stoppedPlies := []
  version := 0
  minVersion := 0
  counter := 0
  retired := []
  defects := []
  absent := []
  stepping := 0
  device := 0
  corrected := []
  correctedCores := []
  evictionFailures := []
  quarantined := []
  thermalEvents := 0
  pendingPlaces := []
  pendingGroups := []
  quarantinedCores := []
  quarantinedTlbs := []
  pendingResets := []

/-- The machine right after reset: the cycle counter at 0 (R123), no warp, no context, no queue, empty caches (log 4), nothing
listed in memory (log 5). -/
def State.reset : State where
  clock := 0
  mem := ⟨[]⟩
  marks := []
  l1 := []
  l2 := []
  tlb := []
  owners := []
  far := []
  w := Warp.vacant
  rest := []
  teams := []
  grids := []
  ctxs := []
  cores := []
  stores := []
  ops := []
  copies := []
  latches := []
  vfs := []
  pf := Vf.new 0
  parts := []
  links := (List.range 16).map fun n => ⟨n, true, 0⟩
  cutAt := 0
  routes := []
  ingress := []
  sluice := Sluice.reset
  spdm := ⟨false, false, false, none, false, 0, []⟩
  outbox := []
  round := []
  issued := []
  spent := false
  faulted := []
  unitWaits := []
  agenda := []
  eventFirst := false
  freeIx := 0
  nextId := 1

end Sys2Proof.Machine
end

