-- ==== Sys2Proof/Machine/Bits.lean ====
section
/-!
DEFINITION. Bit fields, sign extension, byte order, and lists used as tables.
-/

namespace Sys2Proof.Machine

/-- The bytes of a number, least significant first (R4). -/
def leBytes : Nat → Nat → List Byte
  | 0, _ => []
  | n + 1, v => BitVec.ofNat 8 v :: leBytes n (v / 256)

/-- The number that bytes hold, least significant first (R4). -/
def leNat : List Byte → Nat
  | [] => 0
  | b :: rest => b.toNat + 256 * leNat rest

/-- `n` bytes of a list from an offset, as a number. -/
def leAt (bytes : List Byte) (off n : Nat) : Nat := leNat ((bytes.drop off).take n)

/-- Bits `hi` to `lo` of a number. -/
def bitsOf (v hi lo : Nat) : Nat := (v >>> lo) % 2 ^ (hi + 1 - lo)

/-- `sext(x, n)` of R129 for a field of its own width, to 64 bits. -/
def sext64 {n : Nat} (x : BitVec n) : BitVec 64 := x.signExtend 64

/-- A number's value as a signed number of `n` bits. -/
def toSigned (n v : Nat) : Int := if v % 2 ^ n < 2 ^ (n - 1) then (v % 2 ^ n : Nat) else (v % 2 ^ n : Nat) - (2 ^ n : Nat)

/-- The elements that satisfy a condition are changed. -/
def mapWhere {α : Type} (p : α → Bool) (f : α → α) (l : List α) : List α := l.map fun x => if p x then f x else x

/-- A change to the first element that satisfies a condition, or a new element. -/
def upsert {α : Type} (p : α → Bool) (f : α → α) (new : α) : List α → List α
  | [] => [f new]
  | x :: rest => if p x then f x :: rest else x :: upsert p f new rest

/-- The least number from 0 to `n - 1` that satisfies a condition. -/
def leastBelow (n : Nat) (p : Nat → Bool) : Option Nat := (List.range n).find? p

/-- A list with one element replaced. -/
def setAt {α : Type} (l : List α) (i : Nat) (x : α) : List α := l.set i x

/-- Bytes written over a list from an offset. -/
def overwrite (l : List Byte) (off : Nat) (new : List Byte) : List Byte := l.take off ++ new ++ l.drop (off + new.length)

/-- The natural numbers from `a`, `n` of them. -/
def rangeFrom (a n : Nat) : List Nat := (List.range n).map (a + ·)

/-- Round up to a multiple of `n`. -/
def roundUp (v n : Nat) : Nat := (v + n - 1) / n * n

/-- The smallest power of two that is at least `v`, from a least exponent, at most 2^(lo + fuel). -/
def powerAtLeast (v : Nat) : Nat → Nat → Nat
  | 0, p => p
  | fuel + 1, p => if v ≤ p then p else powerAtLeast v fuel (2 * p)

/-- Insertion into a list sorted by a strict order; equal elements keep their order of arrival. -/
def insertBy {α : Type} (lt : α → α → Bool) (x : α) : List α → List α
  | [] => [x]
  | y :: rest => if lt x y then x :: y :: rest else y :: insertBy lt x rest

/-- Stable insertion sort. -/
def sortBy {α : Type} (lt : α → α → Bool) (l : List α) : List α := l.foldl (fun acc x => insertBy lt x acc) []

/-- One step of CRC-32C on one bit of a reflected register (R93). -/
def crcBit (c : Nat) : Nat := if c % 2 = 1 then (c / 2) ^^^ 0x82F63B78 else c / 2

/-- CRC-32C of bytes (R93): polynomial 0x1EDC6F41 reflected, initial value and final XOR all ones. -/
def crc32c (bytes : List Byte) : Nat :=
  (bytes.foldl (fun c b => (List.range 8).foldl (fun r _ => crcBit r) (c ^^^ b.toNat)) 0xFFFFFFFF) ^^^ 0xFFFFFFFF

end Sys2Proof.Machine
end

