-- ==== Sys2Proof/Machine/Flags.lean ====
section
/-!
DEFINITION. The sticky flags of R60 and every result of an integer operation with the flag it sets: the integer and multiply modes
(R120), division (R138), shifts, comparisons (R119), bit counts and fields.
-/

namespace Sys2Proof.Machine

/-! ### Flag bits (R60) -/

def flagInvalid : Word := 0x01
def flagDivZero : Word := 0x02
def flagOverflow : Word := 0x04
def flagUnderflow : Word := 0x08
def flagInexact : Word := 0x10
def flagSat : Word := 0x20
def flagNar : Word := 0x40

/-- A flag when a condition holds. -/
def flagIf (c : Bool) (f : Word) : Word := if c then f else 0

/-! ### Integer arithmetic -/

/-- An exact result clamped to a range, with sat when it is clamped (R120). -/
def clampTo (lo hi x : Int) : Int × Word := if x < lo then (lo, flagSat) else if hi < x then (hi, flagSat) else (x, 0)

/-- An exact result from operands read as signed and as unsigned, delivered under an integer mode (R120, R136). -/
def byMode {n : Nat} (m : BitVec 2) (wrapped : BitVec n) (signed unsigned : Int) : BitVec n × Word :=
  match m with
  | 1 => let r := clampTo (-(2 ^ (n - 1) : Nat)) ((2 ^ (n - 1) : Nat) - 1) signed; (BitVec.ofInt n r.1, r.2)
  | 2 => let r := clampTo 0 ((2 ^ n : Nat) - 1) unsigned; (BitVec.ofInt n r.1, r.2)
  | _ => (wrapped, 0)

/-- Addition under an integer mode. -/
def addMode {n : Nat} (m : BitVec 2) (a b : BitVec n) : BitVec n × Word :=
  byMode m (a + b) (a.toInt + b.toInt) ((a.toNat : Int) + b.toNat)

/-- Subtraction under an integer mode. -/
def subMode {n : Nat} (m : BitVec 2) (a b : BitVec n) : BitVec n × Word :=
  byMode m (a - b) (a.toInt - b.toInt) ((a.toNat : Int) - b.toNat)

/-- Multiplication under a multiply mode (R120, R137). -/
def mulMode (m : BitVec 2) (a b : Word) : Word × Word :=
  match m with
  | 3 => (BitVec.ofNat 32 (a.toNat * b.toNat / 2 ^ 32), 0)
  | m => byMode m (a * b) (a.toInt * b.toInt) ((a.toNat : Int) * b.toNat)

/-- Quotient and remainder of `sdiv` (R138). -/
def divide (isUnsigned : Bool) (a b : Word) : Word × Word :=
  if b = 0#32 then (0xFFFFFFFF#32, a)
  else if isUnsigned then (a / b, a % b)
  else if a = 0x80000000#32 ∧ b = 0xFFFFFFFF#32 then (0x80000000#32, 0#32)
  else (BitVec.ofInt 32 (a.toInt.tdiv b.toInt), BitVec.ofInt 32 (a.toInt.tmod b.toInt))

/-- The shift count of bits 4:0. -/
def shiftCount (b : Word) : Nat := b.toNat % 32

/-- The smaller of two values, as i32 or as n32. -/
def minWord (isUnsigned : Bool) (a b : Word) : Word := if isUnsigned then (if a.ult b then a else b) else (if a.slt b then a else b)

/-- The larger of two values, as i32 or as n32. -/
def maxWord (isUnsigned : Bool) (a b : Word) : Word := if isUnsigned then (if a.ult b then b else a) else (if a.slt b then b else a)

/-- The conditions of R119 for `scmp`, `vcmp` and their immediates; `vcmpn` reads lt and ge as unsigned. -/
def condition (n : Bool) (c : BitVec 3) (a b : Word) : Bool :=
  match c with
  | 0 => a == b
  | 1 => a != b
  | 2 => if n then a.ult b else a.slt b
  | 3 => !(if n then a.ult b else a.slt b)
  | 4 => a.ult b
  | 5 => !a.ult b
  | 6 => a &&& b == 0#32
  | _ => a &&& b != 0#32

/-- The word 1 or 0. -/
def boolWord (b : Bool) : Word := if b then 1#32 else 0#32

/-- Number of leading zero bits, 0 to 32. -/
def leadingZeros (x : Word) : Word := BitVec.ofNat 32 (if x = 0#32 then 32 else 31 - Nat.log2 x.toNat)

/-- Number of one bits, 0 to 32. -/
def popCount (x : Word) : Word := BitVec.ofNat 32 ((List.range 32).countP fun i => x.getLsbD i)

/-- Position and number of bits of a field descriptor (R156). -/
def fieldOf (d : Word) : Nat × Nat :=
  let pos := d.toNat % 32
  let w := d.toNat / 256 % 32
  (pos, min (pos + w) 32 - pos)

/-- `vbfe` (R156). -/
def extractField (signed : Bool) (x d : Word) : Word :=
  let (pos, k) := fieldOf d
  let v := x.toNat / 2 ^ pos % 2 ^ k
  if k = 0 then 0#32 else if signed && decide (2 ^ (k - 1) ≤ v) then BitVec.ofInt 32 ((v : Int) - (2 ^ k : Nat)) else BitVec.ofNat 32 v

/-- `vbfi` (R156). -/
def insertField (old x d : Word) : Word :=
  let (pos, k) := fieldOf d
  let m : Word := BitVec.ofNat 32 ((2 ^ k - 1) * 2 ^ pos)
  (old &&& ~~~m) ||| ((x <<< pos) &&& m)

end Sys2Proof.Machine
end

