-- ==== Sys2Proof/Machine/Numbers.lean ====
section
/-!
DEFINITION. Exact numbers, the element formats (R35 to R39), rounding (R57), binary32 arithmetic (R159 to R161), conversions (R58),
LG6 (R36, R37, R44, R50), rotation (R51) and block scales (R54 to R56).

A number is exact (an integer times a power of two) until it is rounded once into its format.
-/

namespace Sys2Proof.Machine

/-- A value: a NaN (signalling or quiet), an infinity, or the finite value (-1)^neg * m * 2^e; zero keeps its sign. -/
inductive Num where
  | nan (signalling : Bool)
  | inf (neg : Bool)
  | fin (neg : Bool) (m : Nat) (e : Int)
  deriving DecidableEq, Repr

namespace Num

/-- The value is a NaN. -/
def isNan : Num → Bool
  | nan _ => true
  | _ => false

/-- The value is a signalling NaN. -/
def isSignalling : Num → Bool
  | nan s => s
  | _ => false

/-- The value is an infinity. -/
def isInf : Num → Bool
  | inf _ => true
  | _ => false

/-- The value is a zero. -/
def isZero : Num → Bool
  | fin _ 0 _ => true
  | _ => false

/-- The sign. -/
def sign : Num → Bool
  | nan _ => false
  | inf n => n
  | fin n _ _ => n

/-- The opposite value. -/
def neg : Num → Num
  | nan s => nan s
  | inf n => inf (!n)
  | fin n m e => fin (!n) m e

/-- Multiplication by a power of two. -/
def scale (k : Int) : Num → Num
  | fin n m e => fin n m (e + k)
  | x => x

end Num

/-- The exponent of the leading bit of a nonzero m * 2^e. -/
def leadExp (m : Nat) (e : Int) : Int := e + (Nat.log2 m : Nat)

/-- A finite value as an integer multiple of 2^q, for q at most its exponent. -/
def atExp (neg : Bool) (m : Nat) (e q : Int) : Int :=
  let n : Int := ((m * 2 ^ (e - q).toNat : Nat) : Int)
  if neg then -n else n

/-- Comparison of the magnitudes m1 * 2^e1 < m2 * 2^e2. -/
def magLt (m1 : Nat) (e1 : Int) (m2 : Nat) (e2 : Int) : Bool :=
  let q := min e1 e2
  decide (m1 * 2 ^ (e1 - q).toNat < m2 * 2 ^ (e2 - q).toNat)

/-- A binary interchange format: exponent bits, mantissa bits, whether it has infinities, and which codes are NaN. -/
structure FloatFormat where
  ebits : Nat
  mbits : Nat
  bias : Nat
  /-- All exponents one: infinities and NaNs as in IEEE 754. -/
  ieee : Bool
  /-- E4M3: only the code with all exponent and mantissa bits one is a NaN. -/
  topNan : Bool
  deriving DecidableEq, Repr

def f32 : FloatFormat := ⟨8, 23, 127, true, false⟩
def f16 : FloatFormat := ⟨5, 10, 15, true, false⟩
def bf16 : FloatFormat := ⟨8, 7, 127, true, false⟩
def e4m3 : FloatFormat := ⟨4, 3, 7, false, true⟩
def e5m2 : FloatFormat := ⟨5, 2, 15, true, false⟩
def e2m3 : FloatFormat := ⟨2, 3, 1, false, false⟩
def e2m1 : FloatFormat := ⟨2, 1, 1, false, false⟩

/-- Bits of a code. -/
def FloatFormat.width (f : FloatFormat) : Nat := 1 + f.ebits + f.mbits

/-- The largest exponent field of a finite value. -/
def FloatFormat.topExp (f : FloatFormat) : Nat := 2 ^ f.ebits - (if f.ieee then 2 else 1)

/-- The largest finite magnitude as a code without its sign. -/
def FloatFormat.maxCode (f : FloatFormat) : Nat := f.topExp * 2 ^ f.mbits + (2 ^ f.mbits - (if f.topNan then 2 else 1))

/-- The value of a code (R38, R39). -/
def FloatFormat.decode (f : FloatFormat) (c : Nat) : Num :=
  let s := c.testBit (f.ebits + f.mbits)
  let e := c / 2 ^ f.mbits % 2 ^ f.ebits
  let m := c % 2 ^ f.mbits
  if f.ieee && e == 2 ^ f.ebits - 1 then (if m = 0 then .inf s else .nan (!m.testBit (f.mbits - 1)))
  else if f.topNan && e == 2 ^ f.ebits - 1 && m == 2 ^ f.mbits - 1 then .nan false
  else if e = 0 then .fin s m (1 - (f.bias : Int) - f.mbits)
  else .fin s (m + 2 ^ f.mbits) ((e : Int) - f.bias - f.mbits)

/-- The canonical NaN (R39). -/
def FloatFormat.nanCode (f : FloatFormat) : Nat :=
  if f.ieee then (2 ^ f.ebits - 1) * 2 ^ f.mbits + 2 ^ (f.mbits - 1) else 2 ^ (f.ebits + f.mbits) - 1

/-- The sign bit of a code. -/
def FloatFormat.signBit (f : FloatFormat) (neg : Bool) : Nat := if neg then 2 ^ (f.ebits + f.mbits) else 0

/-- Rounding modes (R57): nearest even, toward zero, toward plus infinity, toward minus infinity. -/
def roundsUp (mode : BitVec 2) (neg : Bool) (odd : Bool) (rem half2 : Nat) (full : Nat) : Bool :=
  -- rem / full is the discarded fraction; half2 is 2 * rem
  if rem = 0 then false
  else match mode with
    | 0 => decide (full < half2) || (half2 == full && odd)
    | 1 => false
    | 2 => !neg
    | _ => neg

/-- The integer nearest to m * 2^e / 2^q under a mode, and whether it is inexact. -/
def roundAt (mode : BitVec 2) (neg : Bool) (m : Nat) (e q : Int) : Nat × Bool :=
  if q ≤ e then (m * 2 ^ (e - q).toNat, false)
  else
    let full := 2 ^ (q - e).toNat
    let n := m / full
    let rem := m % full
    (if roundsUp mode neg (n % 2 = 1) rem (2 * rem) full then n + 1 else n, rem != 0)

/-- A rounded finite value before the overflow check: integer times 2^q, inexact, tiny after rounding (R57). -/
structure Rounded where
  n : Nat
  q : Int
  inexact : Bool
  tiny : Bool
  deriving DecidableEq, Repr

/-- Round a finite value to a format's precision with its exponent range unbounded above. -/
def FloatFormat.roundFin (f : FloatFormat) (mode : BitVec 2) (neg : Bool) (m : Nat) (e : Int) : Rounded :=
  let emin : Int := 1 - (f.bias : Int)
  let lead := leadExp m e
  let q := max (lead - f.mbits) (emin - f.mbits)
  let r := roundAt mode neg m e q
  let free := roundAt mode neg m e (lead - f.mbits)
  let tiny := lead < emin && !(decide (2 ^ (f.mbits + 1) ≤ free.1) && lead + 1 == emin)
  if r.1 = 2 ^ (f.mbits + 1) then ⟨2 ^ f.mbits, q + 1, r.2, tiny⟩ else ⟨r.1, q, r.2, tiny⟩

/-- The code of a rounded magnitude that is not beyond the largest finite value. -/
def FloatFormat.codeOf (f : FloatFormat) (r : Rounded) : Nat :=
  if r.n < 2 ^ f.mbits then r.n
  else (r.q + f.mbits + f.bias).toNat * 2 ^ f.mbits + (r.n - 2 ^ f.mbits)

/-- The rounded magnitude is beyond the largest finite value. -/
def FloatFormat.beyond (f : FloatFormat) (r : Rounded) : Bool :=
  decide (2 ^ f.mbits ≤ r.n) && decide (f.maxCode < f.codeOf r)

/-- A value rounded into a format under IEEE 754 (R57, R58): its code and the flags it sets. With `sat`, an overflow gives the largest
finite value and sets saturation instead. NaN gives the canonical NaN. The row of R58 for a float to float `vcvt` names no flag for a result
rounded without overflow: inexact and underflow are set as IEEE 754 sets them, the model's choice (log 53). -/
def FloatFormat.round (f : FloatFormat) (mode : BitVec 2) (sat : Bool) (x : Num) : Nat × Word :=
  let infCode (neg : Bool) : Nat := if f.topNan then f.nanCode else f.signBit neg + (2 ^ f.ebits - 1) * 2 ^ f.mbits
  let overflowed (neg : Bool) (toInf : Bool) : Nat × Word :=
    if sat then (f.signBit neg + f.maxCode, flagSat)
    else (if toInf then infCode neg else f.signBit neg + f.maxCode, flagOverflow ||| flagInexact)
  match x with
  | .nan _ => (f.nanCode, 0)
  | .inf neg => if f.topNan then overflowed neg true else (infCode neg, 0)
  | .fin neg 0 _ => (f.signBit neg, 0)
  | .fin neg m e =>
    let r := f.roundFin mode neg m e
    if f.beyond r then overflowed neg (match mode with | 0 => true | 1 => false | 2 => !neg | _ => neg)
    else (f.signBit neg + f.codeOf r, flagIf r.inexact flagInexact ||| flagIf (r.inexact && r.tiny) flagUnderflow)

/-- `round_f32` of R129. -/
def roundF32 (mode : BitVec 2) (x : Num) : Word × Word := let r := f32.round mode false x; (BitVec.ofNat 32 r.1, r.2)

/-- The value of binary32 bits. -/
def numF32 (w : Word) : Num := f32.decode w.toNat

/-- The canonical NaN of binary32. -/
def nanF32 : Word := 0x7FC00000#32

/-! ### Exact sums and products -/

/-- The exact sum of two numbers, without flags: a NaN when one is NaN or the infinities oppose. An exact zero takes the IEEE sign for
the mode (R159). -/
def addNum (mode : BitVec 2) : Num → Num → Num
  | .nan _, _ => .nan false
  | _, .nan _ => .nan false
  | .inf a, .inf b => if a == b then .inf a else .nan false
  | .inf a, _ => .inf a
  | _, .inf b => .inf b
  | .fin na ma ea, .fin nb mb eb =>
    let q := min ea eb
    let s := atExp na ma ea q + atExp nb mb eb q
    if s = 0 then .fin (if ma = 0 && mb = 0 && na == nb then na else mode == 3#2) 0 q else .fin (decide (s < 0)) s.natAbs q

/-- The exact product of two numbers; an infinity times zero is a NaN. -/
def mulNum : Num → Num → Num
  | .nan _, _ => .nan false
  | _, .nan _ => .nan false
  | .inf a, y => if y.isZero then .nan false else .inf (a != y.sign)
  | x, .inf b => if x.isZero then .nan false else .inf (x.sign != b)
  | .fin na ma ea, .fin nb mb eb => .fin (na != nb) (ma * mb) (ea + eb)

/-- Invalid: a signalling operand, or a NaN that no operand brings (R60, IEEE 754). -/
def invalidOf (ops : List Num) (r : Num) : Word :=
  flagIf ((ops.any (·.isSignalling)) || (r.isNan && !ops.any (·.isNan))) flagInvalid

/-- `vfadd` on one lane (R159). -/
def addF32 (mode : BitVec 2) (a b : Word) : Word × Word :=
  let x := numF32 a
  let y := numF32 b
  let s := addNum mode x y
  let r := roundF32 mode s
  (r.1, r.2 ||| invalidOf [x, y] s)

/-- Binary32 bits with the opposite sign. -/
def negBits (a : Word) : Word := a ^^^ 0x80000000#32

/-- `vfsub` on one lane (R159). -/
def subF32 (mode : BitVec 2) (a b : Word) : Word × Word := addF32 mode a (negBits b)

/-- `vfmul` on one lane (R159). -/
def mulF32 (mode : BitVec 2) (a b : Word) : Word × Word :=
  let x := numF32 a
  let y := numF32 b
  let p := mulNum x y
  let r := roundF32 mode p
  (r.1, r.2 ||| invalidOf [x, y] p)

/-- `vfma` on one lane: one rounding; an infinity times zero sets invalid even when the addend is a quiet NaN (R159). -/
def fmaF32 (mode : BitVec 2) (a b c : Word) : Word × Word :=
  let x := numF32 a
  let y := numF32 b
  let z := numF32 c
  let p := mulNum x y
  let s := addNum mode p z
  let r := roundF32 mode s
  (r.1, r.2 ||| invalidOf [x, y, z] s ||| invalidOf [x, y] p)

/-- The order of two numbers that are not NaN: less (R119; -0 equals +0). -/
def ltNum : Num → Num → Bool
  | .inf a, .inf b => a && !b
  | .inf a, _ => a
  | _, .inf b => !b
  | .fin na ma ea, .fin nb mb eb => let q := min ea eb; decide (atExp na ma ea q < atExp nb mb eb q)
  | _, _ => false

/-- Equality of two numbers that are not NaN. -/
def eqNum (x y : Num) : Bool := !x.isNan && !y.isNan && !ltNum x y && !ltNum y x

/-- The smaller (or larger) of two binary32 values (R160): -0 is smaller than +0, a NaN yields the other operand. -/
def minMaxF32 (larger : Bool) (a b : Word) : Word × Word :=
  let x := numF32 a
  let y := numF32 b
  let inv := flagIf (x.isSignalling || y.isSignalling) flagInvalid
  let less := ltNum x y || (eqNum x y && x.sign && !y.sign)
  let r :=
    if x.isNan then (if y.isNan then nanF32 else b)
    else if y.isNan then a
    else if less then (if larger then b else a)
    else (if larger then a else b)
  (r, inv)

/-- `vfcmp` (R119, R161): the condition and the flag. -/
def compareF32 (c : BitVec 3) (a b : Word) : Bool × Word :=
  let x := numF32 a
  let y := numF32 b
  let un := x.isNan || y.isNan
  let sig := x.isSignalling || y.isSignalling
  let lt := !un && ltNum x y
  let eq := eqNum x y
  match c with
  | 0 => (eq, flagIf sig flagInvalid)
  | 1 => (un || !eq, flagIf sig flagInvalid)
  | 2 => (lt, flagIf un flagInvalid)
  | 3 => (!un && !lt, flagIf un flagInvalid)
  | 4 => (un || lt, flagIf un flagInvalid)
  | 5 => (un || !lt, flagIf un flagInvalid)
  | 6 => (un, flagIf sig flagInvalid)
  | _ => (!un, flagIf sig flagInvalid)

/-! ### LG6 (R36, R37, R44, R50) -/

/-- The magnitudes N of R37. -/
def lg6N (i : Nat) : Nat := match i % 4 with | 0 => 1024 | 1 => 1218 | 2 => 1448 | _ => 1722

/-- The midpoints M of R50. -/
def lg6M (i : Nat) : Nat := match i % 4 with | 0 => 1121 | 1 => 1333 | 2 => 1585 | _ => 1885

/-- `lg6_value` (R37): NaN for NaR. -/
def lg6Value (c : Nat) : Num :=
  let q := c % 32
  let s := c.testBit 5
  if q = 0 then (if s then .nan false else .fin false 0 0) else .fin s (lg6N q) ((q / 4 : Nat) - 14)

/-- The magnitude m * 2^e is above the midpoint between value(q) and value(q+1), or at it when q is odd (R50). -/
def lg6Above (m : Nat) (e : Int) (q : Nat) : Bool :=
  let mm := lg6M q
  let me : Int := (q / 4 : Nat) - 14
  magLt mm me m e || (!magLt m e mm me && q % 2 = 1)

/-- `lg6_quant` (R50) with every condition it reports. -/
def lg6Quant (x : Num) : Nat × Word :=
  match x with
  | .nan _ => (32, flagNar)
  | .inf neg => ((if neg then 32 else 0) + 31, flagSat)
  | .fin _ 0 _ => (0, 0)
  | .fin neg m e =>
    let s := if neg then 32 else 0
    if magLt (lg6N 31) (-7) m e then (s + 31, flagSat)
    else if !magLt 609 (-14) m e then (0, flagUnderflow ||| flagInexact)
    else
      let q := 1 + (List.range 30).countP fun i => lg6Above m e (i + 1)
      let exact := match lg6Value q with
        | .fin _ mv ev => !magLt mv ev m e && !magLt m e mv ev
        | _ => false
      (s + q, flagIf (!exact) flagInexact)

/-- `lg6_mul` (R44): the product in the logarithmic domain; NaN for NaR. -/
def lg6Mul (a b : Nat) : Num :=
  let qa := a % 32
  let qb := b % 32
  if (qa = 0 && a.testBit 5) || (qb = 0 && b.testBit 5) then .nan false
  else if qa = 0 || qb = 0 then .fin false 0 0
  else .fin (a.testBit 5 != b.testBit 5) (lg6N (qa + qb)) (((qa + qb) / 4 : Nat) - 18)

/-! ### Element formats by code (R35) -/

/-- The binary format of an element code. -/
def floatOfCode (c : Nat) : Option FloatFormat :=
  match c with
  | 1 => some e4m3
  | 2 => some e5m2
  | 3 => some bf16
  | 4 => some f16
  | 5 => some f32
  | 6 => some e2m3
  | 7 => some e2m1
  | _ => none

/-- Width of an element in bits. -/
def elemBits (c : Nat) : Nat :=
  match c with
  | 0 => 6 | 1 => 8 | 2 => 8 | 3 => 16 | 4 => 16 | 5 => 32 | 6 => 6 | 7 => 4 | _ => 8

/-- Bytes of an element in scratchpad and operand memory (R40, R223, R232). -/
def elemBytes (c : Nat) : Nat := match c with | 3 => 2 | 4 => 2 | 5 => 4 | _ => 1

/-- The value of an element. -/
def elemValue (fmt c : Nat) : Num :=
  match floatOfCode fmt with
  | some f => f.decode (c % 2 ^ f.width)
  | none => if fmt = 0 then lg6Value c else .fin false 1 0

/-- The value of a scale byte (E8M0, R38): 0xFF is NaN. -/
def scaleValue (b : Nat) : Num := if b = 255 then .nan false else .fin false 1 ((b : Int) - 127)

/-- The families of R35. -/
inductive Family where
  | L | S | W
  deriving DecidableEq, Repr

/-- The family of a code that is legal as A or B. -/
def familyOf (c : Nat) : Option Family :=
  match c with
  | 0 => some .L
  | 1 | 2 | 6 | 7 => some .S
  | 3 | 4 => some .W
  | _ => none

/-! ### Conversions (R58) -/

/-- A number rounded to an integer. -/
def roundInt (mode : BitVec 2) (neg : Bool) (m : Nat) (e : Int) : Int :=
  let r := roundAt mode neg m e 0
  if neg then -(r.1 : Int) else r.1

/-- The value of a source operand under a conversion code. -/
def convSource (s : Nat) (x : Word) : Num :=
  match s with
  | 0 => numF32 x
  | 1 => f16.decode (x.toNat % 2 ^ 16)
  | 2 => bf16.decode (x.toNat % 2 ^ 16)
  | 3 => .fin (decide (x.toInt < 0)) x.toInt.natAbs 0
  | 4 => .fin false x.toNat 0
  | 5 => e4m3.decode (x.toNat % 2 ^ 8)
  | 6 => e5m2.decode (x.toNat % 2 ^ 8)
  | _ => lg6Value (x.toNat % 64)

/-- Conversion to an integer: NaN gives 0, a value outside the range the nearest bound, and both set invalid. The row of R58 names no flag for
a discarded fraction, and none is set (log 21). R58 does not say whether the range is judged before or after rounding: the model judges the
rounded integer, its choice (log 52). -/
def toInteger (mode : BitVec 2) (lo hi : Int) (x : Num) : Word × Word :=
  match x with
  | .nan _ => (0, flagInvalid)
  | .inf neg => (BitVec.ofInt 32 (if neg then lo else hi), flagInvalid)
  | .fin neg m e =>
    let r := roundInt mode neg m e
    if r < lo then (BitVec.ofInt 32 lo, flagInvalid)
    else if hi < r then (BitVec.ofInt 32 hi, flagInvalid)
    else (BitVec.ofInt 32 r, 0)

/-- The destination formats of codes 0, 1, 2, 5 and 6. -/
def convFormat (d : Nat) : FloatFormat :=
  match d with
  | 0 => f32 | 1 => f16 | 2 => bf16 | 5 => e4m3 | _ => e5m2

/-- Bits of the operand of a conversion code. -/
def convWidth (c : Nat) : Nat :=
  match c with
  | 1 | 2 => 16 | 5 | 6 => 8 | 7 => 6 | _ => 32

/-- `vcvt` on one lane (R58): rounding mode, source code, destination code, saturation request. -/
def convert (mode : BitVec 2) (s d : Nat) (sat : Bool) (x : Word) : Word × Word :=
  let v := convSource s x
  let sig := flagIf v.isSignalling flagInvalid
  if s = d then (BitVec.ofNat 32 (x.toNat % 2 ^ convWidth d), 0)
  else if s = 4 ∧ d = 3 then (if sat && x.getLsbD 31 then (0x7FFFFFFF#32, flagSat) else (x, 0))
  else if s = 3 ∧ d = 4 then (if sat && x.getLsbD 31 then (0#32, flagSat) else (x, 0))
  else if d = 7 then let r := lg6Quant v; (BitVec.ofNat 32 r.1, r.2 ||| sig)
  else if d = 3 then let r := toInteger mode (-(2 ^ 31)) (2 ^ 31 - 1) v; (r.1, r.2 ||| sig)
  else if d = 4 then let r := toInteger mode 0 (2 ^ 32 - 1) v; (r.1, r.2 ||| sig)
  else let r := (convFormat d).round mode sat v; (BitVec.ofNat 32 r.1, r.2 ||| sig)

/-! ### Hadamard stages and rotation (R51, R171) -/

/-- One stage of a Hadamard transform of stride h over binary32 values: sums in the lower, differences in the upper places. -/
def hadamardStage (h : Nat) (x : List Word) : List (Word × Word) :=
  (List.range x.length).map fun i =>
    let a := (x[i]?).getD 0
    if i / h % 2 = 0 then addF32 0 a ((x[i + h]?).getD 0) else subF32 0 ((x[i - h]?).getD 0) a

/-- The stages of strides 1, 2, 4 … below the number of values, with the flags. -/
def hadamard : Nat → Nat → List Word → Word → List Word × Word
  | 0, _, x, f => (x, f)
  | fuel + 1, h, x, f =>
    if x.length ≤ h then (x, f)
    else
      let r := hadamardStage h x
      hadamard fuel (2 * h) (r.map (·.1)) (r.foldl (fun f p => f ||| p.2) f)

/-- Every value times a power of two, rounded to nearest even. -/
def scaleAll (k : Word) (x : List Word) (f : Word) : List Word × Word :=
  let r := x.map fun a => mulF32 0 a k
  (r.map (·.1), r.foldl (fun f p => f ||| p.2) f)

/-- The signs of R51: the bits of the linear feedback register from a start value. -/
def lfsrBits : Nat → Word → List Bool
  | 0, _ => []
  | n + 1, st =>
    let bit := st.getLsbD 0
    bit :: lfsrBits n ((st >>> 1) ^^^ (if bit then 0xD0000001#32 else 0#32))

/-- The binary32 code of 2^(-log2(b)/2) for b = 16, 64, 256: 1/4, 1/8, 1/16. -/
def rotateScale (b : Nat) : Word := if b = 16 then 0x3E800000#32 else if b = 64 then 0x3E000000#32 else 0x3D800000#32

/-- `rotate` (R51): the transformed block and the flags of its additions and multiplications. -/
def rotate (x : List Word) (b : Nat) (seed : Word) (blk : Nat) : List Word × Word :=
  let st := seed ^^^ (BitVec.ofNat 32 (blk * 0x9E3779B9))
  let st := if st = 0#32 then 1#32 else st
  let signs := lfsrBits b st
  let y := (x.zip signs).map fun p => if p.2 then negBits p.1 else p.1
  let r := hadamard 9 1 y 0
  scaleAll (rotateScale b) r.1 r.2

/-- The flags of a rotation that reach nflags: invalid and overflow (R51, R60). -/
def rotateFlags (f : Word) : Word := f &&& (flagInvalid ||| flagOverflow)

/-! ### Block scales and drain conversion (R53 to R56) -/

/-- The largest magnitude of a block of finite values, as m * 2^e. -/
def largest (xs : List Num) : Nat × Int :=
  xs.foldl (fun best x => match x with
    | .fin _ m e => if magLt best.1 best.2 m e then (m, e) else best
    | _ => best) (0, 0)

/-- emax of R54. -/
def mxEmax (fmt : Nat) : Int := if fmt = 1 then 8 else 2

/-- An integer clamped to a range. -/
def clampInt (lo hi x : Int) : Int := if x < lo then lo else if hi < x then hi else x

/-- An exact value rounded to nearest even into a format, clamped to its largest finite value with saturation (R54, R56). -/
def roundClamp (f : FloatFormat) (x : Num) : Nat × Word :=
  match x with
  | .nan _ => (f.nanCode, 0)
  | .inf neg => if f.ieee then (f.signBit neg + (2 ^ f.ebits - 1) * 2 ^ f.mbits, 0) else (f.signBit neg + f.maxCode, flagSat)
  | .fin neg 0 _ => (f.signBit neg, 0)
  | .fin neg m e =>
    let r := f.roundFin 0 neg m e
    if f.beyond r then (f.signBit neg + f.maxCode, flagSat) else (f.signBit neg + f.codeOf r, 0)

/-- The smallest E for which X / 2^E is at most 13.453125 = 1722 * 2^-7 (R55). -/
def lg6Exp (m : Nat) (e : Int) : Int :=
  let d := leadExp m e - 4
  let d := if magLt 1722 (d - 7) m e then d + 1 else d
  if magLt 1722 (d - 7) m e then d + 1 else d

/-- A block of 32 values with its scale (R54 for E4M3, E2M3, E2M1; R55 for LG6): the scale byte, the element codes, the flags. -/
def scaledBlock (fmt : Nat) (xs : List Num) : Nat × List Nat × Word :=
  let bad := xs.any fun x => x.isNan || x.isInf
  let hasInf := flagIf (xs.any (·.isInf)) flagOverflow
  if fmt = 0 then
    if bad then (255, xs.map fun _ => 32, flagNar ||| hasInf)
    else if xs.all (·.isZero) then (0, xs.map fun _ => 0, 0)
    else
      let l := largest xs
      let ex := clampInt (-127) 127 (lg6Exp l.1 l.2)
      let r := xs.map fun x => lg6Quant (x.scale (-ex))
      ((ex + 127).toNat, r.map (·.1), (r.foldl (fun f p => f ||| p.2) 0) &&& (flagSat ||| flagNar))
  else
    match floatOfCode fmt with
    | none => (0, [], 0)
    | some f =>
      if bad then (255, xs.map fun _ => if fmt = 1 then 0x7F else 0, hasInf)
      else if xs.all (·.isZero) then (0, xs.map fun x => f.signBit x.sign, 0)
      else
        let l := largest xs
        let ex := clampInt (-127) 127 (leadExp l.1 l.2 - mxEmax fmt)
        let r := xs.map fun x => roundClamp f (x.scale (-ex))
        ((ex + 127).toNat, r.map (·.1), r.foldl (fun f p => f ||| p.2) 0)

/-- An element without a block scale (R56): its code and the flags among sat and nar. R235 names R56 for LG6 and FP8 destinations of a copy
only; the model takes the same clamp for FP32, BF16 and FP16 destinations, its choice (log 50). -/
def plainElement (fmt : Nat) (x : Num) : Nat × Word :=
  if fmt = 0 then let r := lg6Quant x; (r.1, r.2 &&& (flagSat ||| flagNar))
  else match floatOfCode fmt with
    | some f => roundClamp f x
    | none => (0, 0)

end Sys2Proof.Machine
end

