-- ==== Sys2Proof/Machine/Memory.lean ====
section
/-!
DEFINITION. Memory by home address, sectors and their marks, ownership of frames, the L2 lines, translation, the L1 sectors.

Every access that reaches a home goes through `sectorCode` and `sectorFill` (reads) or `homeStore` (writes).
-/

namespace Sys2Proof.Machine

/-! ### Bytes -/

/-- What an unlisted byte of memory reads as (log 5). -/
def Memory.unlisted : Byte := 0#8

/-- Insertion of a byte into a canonical list of cells. -/
def Memory.insert : List Host.Cell → Nat → Byte → List Host.Cell
  | [], a, b => if b = Memory.unlisted then [] else [(a, b)]
  | (x, c) :: rest, a, b =>
      if a < x then (if b = Memory.unlisted then (x, c) :: rest else (a, b) :: (x, c) :: rest)
      else if a = x then (if b = Memory.unlisted then rest else (a, b) :: rest)
      else (x, c) :: Memory.insert rest a b

/-- The byte at a home address. -/
def Memory.lookup : List Host.Cell → Nat → Byte
  | [], _ => Memory.unlisted
  | (x, c) :: rest, a => if x = a then c else Memory.lookup rest a

/-- Read one byte. -/
def Memory.read (m : Memory) (a : Nat) : Byte := Memory.lookup m.cells a

/-- Write one byte. -/
def Memory.write (m : Memory) (a : Nat) (b : Byte) : Memory := ⟨Memory.insert m.cells a b⟩

/-- Read `n` bytes. -/
def Memory.readBytes (m : Memory) (a n : Nat) : List Byte := (rangeFrom a n).map m.read

/-- Write bytes at ascending addresses. -/
def Memory.writeBytes : Memory → Nat → List Byte → Memory
  | m, _, [] => m
  | m, a, b :: rest => Memory.writeBytes (m.write a b) (a + 1) rest

/-- Read a little-endian number of `n` bytes. -/
def Memory.readNat (m : Memory) (a n : Nat) : Nat := leNat (m.readBytes a n)

/-! ### Addresses of home -/

/-- First byte of the 64-byte sector. -/
def sectorOf (ha : Nat) : Nat := ha / 64 * 64

/-- First byte of the 256-byte line. -/
def lineOf (ha : Nat) : Nat := ha / 256 * 256

/-- Home addresses of device DRAM (R71). -/
def isDram (ha : Nat) : Bool := decide (ha < 2 ^ 52)

/-- Bytes of device DRAM (R71). -/
def dramBytes : Nat := 192 * 2 ^ 30

/-- Home address of a physical address by its loc and peer (R65). -/
def homeOf (loc peer pa : Nat) : Nat :=
  match loc with
  | 0 => pa
  | 1 => 2 ^ 56 + pa
  | _ => 2 ^ 57 + peer * 2 ^ 52 + pa

/-- The L2 bank of a home address (R71): sector banks numbered across the device. -/
def bankOf (ha : Nat) : Nat := ha / 256 % 4 + 4 * (ha / 2 ^ 31)

/-- The slice of a home address (R71). -/
def sliceOf (ha : Nat) : Nat := ha / 2 ^ 31 % 12

/-- Add to the count of a key; a count of 0 is not listed. -/
def countUp {α : Type} [BEq α] (k : α) (n : Nat) (l : List (α × Nat)) : List (α × Nat) :=
  if n = 0 then l else upsert (fun e => e.1 == k) (fun e => (e.1, e.2 + n)) (k, 0) l

/-! ### Contexts, cores and their parts by name -/

/-- The context of an identifier. -/
def State.ctx? (s : State) (id : Nat) : Option Ctx := s.ctxs.find? fun c => c.id == id

/-- Change a context. -/
def State.setCtx (s : State) (id : Nat) (f : Ctx → Ctx) : State := { s with ctxs := mapWhere (fun c => c.id == id) f s.ctxs }

/-- The virtual function of a number. -/
def State.vf? (s : State) (n : Nat) : Option Vf := s.vfs.find? fun v => v.n == n

/-- Change a virtual function. -/
def State.setVf (s : State) (n : Nat) (f : Vf → Vf) : State := { s with vfs := mapWhere (fun v => v.n == n) f s.vfs }

/-- The partition of a number. -/
def State.part? (s : State) (n : Nat) : Option Partition := s.parts.find? fun p => p.n == n

/-- Change a partition. -/
def State.setPart (s : State) (n : Nat) (f : Partition → Partition) : State :=
  { s with parts := mapWhere (fun p => p.n == n) f s.parts }

/-- A core; a core that nothing has used yet is fresh. -/
def State.core (s : State) (id : CoreId) : Core := (s.cores.find? fun c => c.id == id).getD (Core.fresh id)

/-- Change a core. -/
def State.setCore (s : State) (id : CoreId) (f : Core → Core) : State :=
  { s with cores := upsert (fun c => c.id == id) f (Core.fresh id) s.cores }

/-- The function of a context. -/
def State.vfOf (s : State) (ctx : Nat) : Option Vf := (s.ctx? ctx).bind fun c => s.vf? c.vf

/-- Send a message out of the device. -/
def State.send (s : State) (m : OutMsg) : State := { s with outbox := s.outbox ++ [m] }

/-- Send an MSI-X vector of a function (R362): it stays pending while the table masks it, bit 0 of the vector control. -/
def State.msix (s : State) (vf vector : Nat) : State :=
  match s.vf? vf with
  | none => s
  | some v =>
    let control := ((v.msixTable.find? fun e => e.1 == 16 * vector + 12).map (·.2)).getD 0
    if control.getLsbD 0 then s.setVf vf fun v => { v with msixPending := vector :: v.msixPending.filter (· != vector) }
    else s.send (.msix vf vector)

/-! ### Ownership, marks and L2 (R73 to R81, R93, R94) -/

/-- The frame is in service and owned by the context (R78, R79). An address above the DRAM that R71 gives has no entry in the table: no
frame of it is owned, the model's choice (log 40). -/
def State.owns (s : State) (ctx ha : Nat) : Bool :=
  decide (ha < dramBytes) &&
    s.owners.any fun f => f.frame == ha / 65536 && f.valid && !f.retired && f.owner == ctx

/-- The mark of a sector. -/
def State.mark (s : State) (sec : Nat) : Option Mark := (s.marks.find? fun m => m.1 == sec).map (·.2)

/-- Set or clear the mark of a sector. -/
def State.setMark (s : State) (sec : Nat) (m : Option Mark) : State :=
  let rest := s.marks.filter fun e => e.1 != sec
  { s with marks := match m with | none => rest | some k => (sec, k) :: rest }

/-- The L2 line of a home address under a context's tag. -/
def State.l2Line (s : State) (ctx ha : Nat) : Option L2Line := s.l2.find? fun l => l.ha == lineOf ha && l.ctx == ctx

/-- The codes with which a request to the memory of the host or a peer can end (R72, R80, R94, R208, R362, R364): no other is ever raised for it
(R323). -/
def farCodes : List Code := [0x08, 0x09, 0x0A, 0x15, 0x16]

/-- How the host or a peer answers a request to a sector of its memory: 0 for a normal answer. -/
def State.farCode (s : State) (sec : Nat) (isAtomic : Bool) : Code :=
  (((s.far.find? fun m => m.ha == sec && (isAtomic || !m.atomicsOnly)).map (·.code)).filter farCodes.contains).getD 0

/-- A link can carry a request to the home (R364, R365): for a peer device, some link of its route is up. -/
def State.reachable (s : State) (ha : Nat) : Bool :=
  decide (ha < 2 ^ 57) ||
    (((s.routes.find? fun r => r.1 == (ha - 2 ^ 57) / 2 ^ 52).map (·.2)).getD []).any fun n => s.links.any fun l => l.n == n && l.up

/-- The bits of `n` bytes from an offset in a line. -/
def byteBits (ha n : Nat) : Nat := (2 ^ n - 1) * 2 ^ (ha % 256)

/-- The check value that is made over a sector's 64 bytes (R93). -/
def State.madeCheck (s : State) (sec : Nat) : Word := BitVec.ofNat 32 (crc32c (s.mem.readBytes sec 64))

/-- L2 holds the sector in full: filled, or written whole (R75). -/
def State.heldWhole (s : State) (sec : Nat) : Bool :=
  s.l2.any fun l => l.ha == lineOf sec && (l.filled.testBit (sec % 256 / 64) || (l.written >>> (sec % 256)) % 2 ^ 64 == 2 ^ 64 - 1)

/-- The mark of a failing check value lies on the sector in DRAM, and L2 holds no whole copy of it, whose value was good (R93). -/
def State.fails (s : State) (sec : Nat) : Bool := s.mark sec == some .failing && !s.heldWhole sec

/-- The check value that a sector carries (R93): the one made over its bytes, or, where it fails, one that differs from it. -/
def State.checkValue (s : State) (sec : Nat) : Word :=
  if s.fails sec then s.madeCheck sec ^^^ (Config.freeWord sec ||| 1#32) else s.madeCheck sec

/-- A verification of the sector passes (R93): the check value it carries is that of its bytes, as `State.verifies_iff` shows. -/
def State.verifies (s : State) (sec : Nat) : Bool := !s.fails sec

/-- A verification of the sector: one that fails poisons it (R94). -/
def State.verify (s : State) (sec : Nat) : State := if s.verifies sec then s else s.setMark sec (some .poisoned)

/-- A read of these bytes hits the line (R73, R75): its sector is filled, or all of them were written. -/
def L2Line.holds (l : L2Line) (ha n : Nat) : Bool :=
  l.filled.testBit (ha % 256 / 64) || (byteBits ha n &&& l.written) == byteBits ha n

/-- What a read of `n` bytes in one sector meets at its home: 0, or 0x0A, 0x15, 0x16 (R79, R93, R94); for memory of the host or a peer the
far answer, and 0x16 where no link carries the request (R364). -/
def State.sectorCode (s : State) (ctx ha n : Nat) : Code :=
  let sec := sectorOf ha
  if !isDram ha then if s.reachable ha then s.farCode sec false else 0x16
  else
    let poisoned := s.mark sec == some .poisoned
    let held := match s.l2Line ctx ha with | some l => l.holds ha n | none => false
    if held then if poisoned then 0x15 else 0
    else if !s.owns ctx ha then 0x0A else if poisoned then 0x15 else if s.verifies sec then 0 else 0x16

/-- The ways of L2 that a context may fill at a bank (R358, R372): those of its function's mask that are not quarantined. -/
def State.fillWays (s : State) (ctx ha : Nat) : List Nat :=
  let mask := ((s.vfOf ctx).map (·.wayMask)).getD 0xFFFF
  (List.range 16).filter fun w => mask.getLsbD w && !s.sluice.quarantined.contains (bankOf ha, w)

/-- The way that a fill takes: free among those that the context may fill; none where it may fill none (R380). -/
def State.fillWay (s : State) (ctx ha : Nat) : Option Nat :=
  match s.fillWays ctx ha with
  | [] => none
  | w :: ws => some ((w :: ws).getD (Config.way s.freeIx % (ws.length + 1)) w)

/-- A sector merges with DRAM (R75): a failing old check value poisons the merged sector, and its bank counts that (R94). -/
def State.mergeSector (s : State) (sec : Nat) : State :=
  if s.verifies sec then s
  else
    let s := s.verify sec
    { s with sluice := { s.sluice with evictionFailures := countUp (bankOf sec) 1 s.sluice.evictionFailures } }

/-- The sectors of a line that hold written bytes and bytes of DRAM beside them (R75): neither filled nor written whole. -/
def L2Line.partly (l : L2Line) : List Nat :=
  ((List.range 4).filter fun i =>
    let written := (l.written >>> (64 * i)) % 2 ^ 64
    !l.filled.testBit i && written != 0 && written != 2 ^ 64 - 1).map fun i => l.ha + 64 * i

/-- The sectors of a line that were written and are held whole: the check value made over them goes to DRAM with them (R93). -/
def L2Line.rewritten (l : L2Line) : List Nat :=
  ((List.range 4).filter fun i =>
    let written := (l.written >>> (64 * i)) % 2 ^ 64
    written == 2 ^ 64 - 1 || (written != 0 && l.filled.testBit i)).map fun i => l.ha + 64 * i

/-- A sector is written to DRAM with the good check value that was made over it: a failing one there is gone (R93). -/
def State.newCheck (s : State) (sec : Nat) : State := if s.mark sec == some .failing then s.setMark sec none else s

/-- A line leaves L2 and its far ways: written sectors go to DRAM with their check values, and partly written ones merge with it (R75, R93). -/
def State.evictLine (s : State) (l : L2Line) : State :=
  let s := { s with l2 := s.l2.filter fun x => !(x.ha == l.ha && x.ctx == l.ctx) }
  l.partly.foldl State.mergeSector (l.rewritten.foldl State.newCheck s)

/-- Lines that the far ways of a slice hold (R76): 330 MiB / 12 for each memory ply (log 44). -/
def State.farRoom (s : State) : Nat := ((List.range 8).countP fun p => !s.sluice.roles.getLsbD p) * (330 * 2 ^ 20 / 12 / 256)

/-- Change a line of L2. -/
def State.setLine (s : State) (ctx ha : Nat) (f : L2Line → L2Line) : State :=
  { s with l2 := mapWhere (fun l => l.ha == lineOf ha && l.ctx == ctx) f s.l2 }

/-- A line leaves its bank (R76): into the far ways of its slice where it may and they have room, a line of a backing area before all
others; or out of L2. -/
def State.leaveBank (s : State) (l : L2Line) (far : Bool) : State :=
  let held := s.l2.filter fun x => x.far && sliceOf x.ha == sliceOf l.ha
  let place (s : State) : State := s.setLine l.ctx l.ha fun x => { x with far := true }
  if l.far || !(far || l.backing) then s.evictLine l
  else if held.length < s.farRoom then place s
  else
    match held.find? fun x => !x.backing with
    | some x => if l.backing && s.farRoom != 0 then place (s.evictLine x) else s.evictLine l
    | none => s.evictLine l

/-- A way of a bank that holds its 1,024 lines (R358) gives one up: the first candidate for eviction (R113), else one that is free. -/
def State.makeRoom (s : State) (ha way : Nat) : State :=
  let bank := s.l2.filter fun x => !x.far && bankOf x.ha == bankOf ha
  let held := if bank.length < 1024 then [] else bank.filter fun x => x.way == way
  if held.length < 1024 then s
  else
    match (held.find? (·.evictFirst)).orElse fun _ => held[Config.way (s.freeIx + 1) % held.length]? with
    | none => s
    | some l => s.leaveBank l (Config.way (s.freeIx + 2) % 2 == 0)

/-- Allocate a line of L2 in a way that the context may fill (R73, R358); where there is none, nothing is allocated. -/
def State.l2Alloc (s : State) (ctx ha : Nat) (dirty : Bool) (filled written : Nat) : State :=
  match s.fillWay ctx ha with
  | none => s
  | some w =>
    let s := s.makeRoom ha w
    { s with l2 := ⟨lineOf ha, ctx, w, dirty, filled, written, false, false, false⟩ :: s.l2, freeIx := s.freeIx + 1 }

/-- Fill a sector into L2 for a context that owns its frame; a failing check value poisons the sector (R93, R94). -/
def State.sectorFill (s : State) (ctx ha n : Nat) : State :=
  if !isDram ha then s
  else
    let bit := 2 ^ (ha % 256 / 64)
    match s.l2Line ctx ha with
    | some l =>
      if l.holds ha n || !s.owns ctx ha then s
      else (s.verify (sectorOf ha)).setLine ctx ha fun l => { l with filled := l.filled ||| bit }
    | none => if !s.owns ctx ha then s else (s.verify (sectorOf ha)).l2Alloc ctx ha false bit 0

/-- Old bytes and marks of a line, kept for a rollback of the context that writes it (R334). -/
def State.logLine (s : State) (core : CoreId) (ctx ha : Nat) : State :=
  let line := lineOf ha
  s.setCtx ctx fun c =>
    if c.undo.any fun u => u.ha == line then c
    else
      let marks := s.marks.filter fun m => lineOf m.1 == line
      { c with undo := ⟨core, line, s.mem.readBytes line 256, marks⟩ :: c.undo }

/-- A write that no rollback undoes also enters the kept copy of its line (R276, R334, R337); one of all 64 bytes clears the kept mark of
its sector (R94). -/
def State.patchUndo (s : State) (ha : Nat) (bytes : List Byte) : State :=
  let line := lineOf ha
  let upd (u : UndoLine) : UndoLine :=
    { u with
      bytes := overwrite u.bytes (ha - line) bytes
      marks := if bytes.length == 64 then u.marks.filter fun m => m.1 != sectorOf ha else u.marks }
  { s with ctxs := s.ctxs.map fun c => { c with undo := mapWhere (fun u => u.ha == line) upd c.undo } }

/-- What a write to one sector meets at its home: 0 or the code of a refusal (R79), of the far side or of the links (R364). -/
def State.storeCode (s : State) (ctx ha : Nat) : Code :=
  if !isDram ha then if s.reachable ha then s.farCode (sectorOf ha) false else 0x16
  else if (s.l2Line ctx ha).isSome || s.owns ctx ha then 0 else 0x0A

/-- A write into the save record of a saved team (R338): whether its check value still matches is open (log 18). -/
def State.hitSaves (s : State) (ha : Nat) : State :=
  let hit (t : Team) : Bool := t.st == .saved && t.saveHas.contains (sectorOf ha)
  { s with teams := mapWhere hit (fun t => { t with saveOk := t.saveOk && (Config.freeWord (s.freeIx + ha)).getLsbD 0 }) s.teams }

/-- Write bytes of one sector at their home (R75): the line is allocated if it misses, its written bytes are recorded, and a store
of all 64 bytes clears poison. `log` names the core whose undo region keeps the old line; none for a write that no rollback undoes. -/
def State.homeStore (s : State) (log : Option CoreId) (ctx ha : Nat) (bytes : List Byte) : State :=
  if s.storeCode ctx ha != 0 then s
  else
    let s := match log with
      | some core => if isDram ha then s.logLine core ctx ha else s
      | none => s.patchUndo ha bytes
    let s := { s with mem := s.mem.writeBytes ha bytes }.hitSaves ha
    if !isDram ha then s
    else
      let whole := bytes.length == 64
      let s := if whole then s.setMark (sectorOf ha) none else s
      let bit := if whole then 2 ^ (ha % 256 / 64) else 0
      let bits := byteBits ha bytes.length
      if (s.l2Line ctx ha).isSome then
        s.setLine ctx ha fun l => { l with dirty := true, filled := l.filled ||| bit, written := l.written ||| bits }
      else if (s.fillWay ctx ha).isNone then s.mergeSector (sectorOf ha)
      else s.l2Alloc ctx ha true bit bits

/-! ### What banks have accepted and not performed (R283, R286)

A store or atomic whose bank has accepted it while an engine owned its line waits there for the engine's data, and is performed after it. The
device's own units meet it as performed: they read its bytes, and what they write comes after it. -/

/-- What an atomic leaves in its location, and its flags (R205, R207). -/
def atomicResult (code : Nat) (isUnsigned isFloat : Bool) (size : Nat) (old opnd cmp : BitVec 64) : BitVec 64 × Word :=
  let n := 8 * size
  let lt := if isUnsigned then decide (old.toNat < opnd.toNat) else decide (toSigned n old.toNat < toSigned n opnd.toNat)
  let f (r : Word × Word) : BitVec 64 × Word := (r.1.setWidth 64, r.2)
  match code with
  | 0 => if isFloat then f (addF32 0 (lo32 old) (lo32 opnd)) else (BitVec.ofNat 64 ((old.toNat + opnd.toNat) % 2 ^ n), 0)
  | 1 => if isFloat then f (minMaxF32 false (lo32 old) (lo32 opnd)) else (if lt then old else opnd, 0)
  | 2 => if isFloat then f (minMaxF32 true (lo32 old) (lo32 opnd)) else (if lt then opnd else old, 0)
  | 3 => (old &&& opnd, 0)
  | 4 => (old ||| opnd, 0)
  | 5 => (old ^^^ opnd, 0)
  | 6 => (opnd, 0)
  | _ => (if old == cmp then opnd else old, 0)

/-- A failed cas writes nothing (R205). -/
def atomicWrites (code : Nat) (old cmp : BitVec 64) : Bool := code != 7 || old == cmp

/-- Bytes that stand over those of memory, the latest first. -/
abbrev Overlay := List (Nat × Byte)

/-- A byte under an overlay. -/
def State.under (s : State) (o : Overlay) (a : Nat) : Byte := ((o.find? fun e => e.1 == a).map (·.2)).getD (s.mem.read a)

/-- Bytes put over an overlay at ascending addresses. -/
def overBytes (a : Nat) (b : List Byte) (o : Overlay) : Overlay := ((rangeFrom a b.length).zip b).foldl (fun o e => e :: o) o

/-- A store as its bank has accepted it for a sector: its lanes there that meet no refusal. -/
def State.overStore (s : State) (p : PendStore) (sec : Nat) (o : Overlay) : Overlay :=
  (p.lanes.filter fun l => sectorOf l.1.ha == sec && s.storeCode p.warp.ctx l.1.ha == 0).foldl (fun o l => overBytes l.1.ha l.2 o) o

/-- An atomic as its bank has accepted it, and what units have written after it. -/
def State.overAtomic (s : State) (ctx : Nat) (x : Load) (o : Overlay) : Overlay :=
  match x.kind with
  | .atomic code u f _ opnds =>
    let go (o : Overlay) (p : LaneReq × BitVec 64 × BitVec 64) : Overlay :=
      let c := if isDram p.1.ha then s.sectorCode ctx p.1.ha x.size else s.farCode (sectorOf p.1.ha) true
      let old := BitVec.ofNat 64 (leNat ((rangeFrom p.1.ha x.size).map (s.under o)))
      if c != 0 || !atomicWrites code old p.2.2 then o
      else overBytes p.1.ha (leBytes x.size (atomicResult code u f x.size old p.2.1 p.2.2).1.toNat) o
    x.later ++ (x.lanes.zip opnds).foldl go o
  | _ => o

/-- What banks have accepted and not performed, in the order of acceptance: stores before an atomic of the same moment, whose core issued them
earlier. -/
def State.acceptances (s : State) : List (Nat × (Overlay → Overlay)) :=
  sortBy (fun a b => decide (a.1 < b.1))
    ((s.stores.flatMap fun p => p.taken.map fun t => (2 * t.2, s.overStore p t.1)) ++
      (s.w :: s.rest).flatMap fun w => (if w.present then w.loads else []).filterMap fun x =>
        if x.data.isSome then none else x.accepted.map fun n => (2 * n + 1, s.overAtomic w.id.ctx x))

/-- Bytes at their home as the device's own units read them: as memory holds them, under what the banks have accepted. An accepted atomic is
taken as it would act now, before an engine's data that it waits for; the model's choice (log 61). -/
def State.seenBytes (s : State) (ha n : Nat) : List Byte :=
  match s.acceptances with
  | [] => s.mem.readBytes ha n
  | l => let o := l.foldl (fun o e => e.2 o) []; (rangeFrom ha n).map (s.under o)

/-- Bytes from `a`, with those of a later write put over them where the two overlap. -/
def putOver (a : Nat) (old : List Byte) (ha : Nat) (bytes : List Byte) : List Byte :=
  ((rangeFrom a old.length).zip old).map fun e => if ha ≤ e.1 then (bytes[e.1 - ha]?).getD e.2 else e.2

/-- A store that waits at its bank, after a unit's later write: it will leave the unit's bytes. -/
def PendStore.patch (p : PendStore) (ha : Nat) (bytes : List Byte) : PendStore :=
  { p with lanes := p.lanes.map fun l => if p.taken.any fun t => t.1 == sectorOf l.1.ha then (l.1, putOver l.1.ha l.2 ha bytes) else l }

/-- An atomic that waits at its bank, after a unit's later write to its bytes. -/
def Load.patch (x : Load) (ha : Nat) (bytes : List Byte) : Load :=
  if x.accepted.isNone || x.data.isSome then x
  else { x with later := (((rangeFrom ha bytes.length).zip bytes).filter fun e => x.lanes.any fun r => decide (r.ha ≤ e.1) && decide (e.1 < r.ha + r.len)) ++ x.later }

/-- A unit's write comes after what the banks have accepted for its bytes; one that no rollback undoes, also after what a rollback brings back
(R276). -/
def State.patchAccepted (s : State) (undone : Bool) (ha : Nat) (bytes : List Byte) : State :=
  let load (w : Warp) : Warp := { w with loads := w.loads.map fun x => x.patch ha bytes }
  let kept (n : Snapshot) : Snapshot := { n with stores := n.stores.map fun p => p.patch ha bytes, warps := n.warps.map load }
  { s with
    w := load s.w, rest := s.rest.map load, stores := s.stores.map fun p => p.patch ha bytes
    ctxs := if undone then s.ctxs else s.ctxs.map fun c => { c with snapshot := kept c.snapshot } }

/-- Nothing is accepted that is not performed, nor would be after a rollback. -/
def State.noneAccepted (s : State) : Bool :=
  let none' (x : Load) : Bool := x.accepted.isNone
  s.stores.all (·.taken.isEmpty) && (s.w :: s.rest).all (fun w => w.loads.all none') &&
    s.ctxs.all fun c => c.snapshot.stores.all (·.taken.isEmpty) && c.snapshot.warps.all fun w => w.loads.all none'

/-- Writes that a unit has made come after what the banks have accepted. -/
def State.afterAccepted (s : State) (undone : Bool) (writes : List (Nat × List Byte)) : State :=
  if s.noneAccepted then s else writes.foldl (fun s p => s.patchAccepted undone p.1 p.2) s

/-! ### Translation (R64 to R70) -/

/-- Who asks for a translation (R66). -/
inductive Access where
  | load | store | atomic | fetch | engineRead | engineWrite
  deriving DecidableEq, Repr

/-- The access writes. -/
def Access.writes : Access → Bool
  | .store | .atomic | .engineWrite => true
  | _ => false

/-- A leaf: the entry, its home address, the first address of its page and the size. -/
structure Leaf where
  pte : BitVec 64
  pteHa : Nat
  page : Nat
  size : Nat
  deriving DecidableEq, Repr

/-- Bits of an entry that must be zero or are reserved (R65, R66): zero fields, a peer where loc is not 0b10, loc 0b11. -/
def badEntry (e : Nat) : Bool :=
  bitsOf e 63 58 != 0 || bitsOf e 11 11 != 0 || bitsOf e 9 8 == 3 || (bitsOf e 57 52 != 0 && bitsOf e 9 8 != 2)

/-- The walk from a table of level `n` (R64 to R66): each table entry read is checked for ownership (R79). -/
def walkFrom (s : State) (ctx va : Nat) : Nat → Nat → Except Code Leaf
  | 0, _ => .error 0x08
  | n + 1, table =>
    let size := 2 ^ (12 + 9 * n)
    let ha := table + 8 * (va / size % 512)
    let code := s.sectorCode ctx ha 8
    if code != 0 then .error code
    else
      let e := leNat (s.seenBytes ha 8)
      if bitsOf e 0 0 == 0 then .error 0x08
      else
        let leaf := n == 0 || bitsOf e 6 6 == 1
        let frame := bitsOf e 51 12 * 4096
        if badEntry e || (leaf && decide (3 ≤ n)) || (!leaf && bitsOf e 9 8 != 0) then .error 0x09
        else if !leaf then walkFrom s ctx va n frame
        else if frame % size != 0 then .error 0x09
        else .ok ⟨BitVec.ofNat 64 e, ha, va / size * size, size⟩

/-- The table entries that a walk reads, to be filled into L2. -/
def walkReads (s : State) (ctx va : Nat) : Nat → Nat → List Nat
  | 0, _ => []
  | n + 1, table =>
    let ha := table + 8 * (va / 2 ^ (12 + 9 * n) % 512)
    let e := leNat (s.seenBytes ha 8)
    if s.sectorCode ctx ha 8 != 0 || bitsOf e 0 0 == 0 || n == 0 || bitsOf e 6 6 == 1 then [ha]
    else ha :: walkReads s ctx va n (bitsOf e 51 12 * 4096)

/-- The walk of a virtual address of the context. -/
def State.walk (s : State) (ctx va : Nat) : Except Code Leaf :=
  match s.ctx? ctx with
  | none => .error 0x08
  | some c => walkFrom s ctx va 5 c.pageTable

/-- The structures that a request looks in, in order (R69). -/
def TlbHome.backed : TlbHome → List TlbHome
  | .core c => [.core c, .sector c.part (c.n / 20)]
  | h => [h]

/-- A cached translation of the address. -/
def State.cached (s : State) (h : TlbHome) (ctx va : Nat) : Option TlbEntry :=
  h.backed.findSome? fun k => s.tlb.find? fun e => e.home == k && e.ctx == ctx && decide (e.page ≤ va) && decide (va < e.page + e.size)

/-- The leaf that translates an address: cached, or walked. A write through a cached entry whose dirty bit is clear walks again (R68). -/
def State.leaf (s : State) (h : TlbHome) (ctx va : Nat) (write : Bool) : Except Code Leaf :=
  match s.cached h ctx va with
  | some e => if write && !e.pte.getLsbD 5 then s.walk ctx va else .ok ⟨e.pte, e.pteHa, e.base, e.size⟩
  | none => s.walk ctx va

/-- The access is allowed by the leaf (R66). -/
def permits (a : Access) (super : Bool) (pte : BitVec 64) : Bool :=
  (match a with
    | .store | .engineWrite => pte.getLsbD 1
    | .atomic => pte.getLsbD 1 && !pte.getLsbD 10
    | .load | .engineRead => !pte.getLsbD 10
    | .fetch => pte.getLsbD 2) && (super || !pte.getLsbD 3)

/-- Home address of an address under its leaf. -/
def Leaf.home (l : Leaf) (va : Nat) : Nat :=
  let e := l.pte.toNat
  homeOf (bitsOf e 9 8) (bitsOf e 57 52) ((bitsOf e 51 12 * 4096 + va + 2 ^ 57 - l.page) % 2 ^ 52)

/-- Translation of a virtual address with its protection check (R64, R66); a failed ATS translation of host memory gives 0x08 (R362). -/
def State.translate (s : State) (h : TlbHome) (ctx : Nat) (a : Access) (super : Bool) (va : Nat) : Except Code Nat :=
  if 2 ^ 57 ≤ va then .error 0x09
  else
    match s.leaf h ctx va a.writes with
    | .error c => .error c
    | .ok l =>
      if !permits a super l.pte then .error 0x09
      else
        let ha := l.home va
        if s.farCode (sectorOf ha) false == 0x08 && !isDram ha then .error 0x08 else .ok ha

/-- Set accessed, and dirty for a write, in an entry at its home (R68); no rollback undoes it. -/
def State.setAccessed (s : State) (ctx pteHa : Nat) (write : Bool) : State :=
  let b := (s.seenBytes pteHa 1).headD 0
  let b' := if write then b ||| 0x30#8 else b ||| 0x10#8
  if b == b' then s else (s.homeStore none ctx pteHa [b']).afterAccepted false [(pteHa, [b'])]

/-- The root of a context's tables. -/
def State.tableOf (s : State) (ctx : Nat) : Nat := ((s.ctx? ctx).map (·.pageTable)).getD 0

/-- What a demand walk to a leaf leaves behind: the entries read are in L2, accessed is set in each, and dirty in the leaf for a write
(R65, R68). -/
def State.walked (s : State) (ctx va : Nat) (l : Leaf) (write : Bool) : State :=
  let reads := walkReads s ctx va 5 (s.tableOf ctx)
  let s := reads.foldl (fun s ha => s.sectorFill ctx ha 8) s
  (reads.filter (· != l.pteHa)).foldl (fun s ha => s.setAccessed ctx ha false) (s.setAccessed ctx l.pteHa write)

/-- Entries of a structure (R69). -/
def TlbHome.capacity : TlbHome → Nat
  | .core _ => 1024
  | .sector _ _ => 32768
  | .fetcher _ => 256
  | .engine _ _ => 256

/-- Cache a translation; one of a full structure, free which, gives way (R69). -/
def State.tlbAdd (s : State) (e : TlbEntry) : State :=
  let held := s.tlb.filter fun x => x.home == e.home
  if held.length < e.home.capacity then { s with tlb := e :: s.tlb }
  else
    let rest := match held[Config.way s.freeIx % held.length]? with | some x => s.tlb.erase x | none => s.tlb
    { s with tlb := e :: rest, freeIx := s.freeIx + 1 }

/-- The entry that a structure caches for a walked leaf: of a group of sixteen it may cover the whole, the choice free (R67). -/
def State.entryOf (s : State) (ctx : Nat) (l : Leaf) (k : TlbHome) : TlbEntry :=
  let pte := BitVec.ofNat 64 (leNat (s.seenBytes l.pteHa 8))
  if l.size == 4096 && pte.getLsbD 7 && (Config.freeWord s.freeIx).getLsbD 0 then ⟨k, ctx, l.page / 65536 * 65536, 65536, l.page, pte, l.pteHa⟩
  else ⟨k, ctx, l.page, l.size, l.page, pte, l.pteHa⟩

/-- What performing a translated access leaves behind: table entries in L2, accessed and dirty bits, cached entries (R68, R69). -/
def State.touch (s : State) (h : TlbHome) (ctx va : Nat) (write : Bool) : State :=
  match s.cached h ctx va, s.leaf h ctx va write with
  | some e, .ok l =>
    if write && !e.pte.getLsbD 5 then
      let s := s.walked ctx va l true
      { s with
        tlb := mapWhere (fun x => h.backed.contains x.home && x.ctx == ctx && x.page == e.page) (fun x => s.entryOf ctx l x.home) s.tlb
        freeIx := s.freeIx + 1 }
    else s
  | none, .ok l =>
    let s := s.walked ctx va l write
    let s := h.backed.reverse.foldl (fun t k => t.tlbAdd (s.entryOf ctx l k)) s
    { s with freeIx := s.freeIx + 1 }
  | _, .error _ => s

/-- A walk met a failing check value in a table entry: the entries that it read are filled, and the failing sector is poisoned (R94). -/
def State.walkMet (s : State) (ctx : Nat) (c : Code) (va : Nat) : State :=
  if c == 0x16 then
    (walkReads s ctx va 5 (s.tableOf ctx)).foldl (fun s ha => s.sectorFill ctx ha 8) s
  else s

/-! ### The device's own accesses to a context's memory -/

/-- Virtual addresses of the first byte of each sector piece of a range: address and length. -/
def pieces : Nat → Nat → Nat → List (Nat × Nat)
  | 0, _, _ => []
  | fuel + 1, va, n => if n = 0 then [] else let k := min n (64 - va % 64); (va, k) :: pieces fuel (va + k) (n - k)

/-- Read a context's memory through the device's own path: translated by its tables and checked for ownership. The front end's and the
frame unit's paths consult no protection bit (R392); an engine's read of a record obeys noread (R66). The code of the first failure, if any. -/
def State.unitRead (s : State) (ctx va n : Nat) (noread : Bool := false) : Except Code (List Byte) :=
  (pieces (n / 64 + 2) va n).foldl (fun acc p =>
    match acc with
    | .error c => .error c
    | .ok bytes =>
      if 2 ^ 57 ≤ p.1 then .error 0x09
      else
        match s.walk ctx p.1 with
        | .error c => .error c
        | .ok l =>
          let ha := l.home p.1
          let code := s.sectorCode ctx ha p.2
          if noread && l.pte.getLsbD 10 then .error 0x09
          else if code != 0 then .error code
          else .ok (bytes ++ s.seenBytes ha p.2)) (.ok [])

/-- What a read through the device's own path leaves behind, up to the first failure (R68, R94), and whether it went through. -/
def State.unitFill (s : State) (ctx va n : Nat) (noread : Bool := false) : State × Bool :=
  (pieces (n / 64 + 2) va n).foldl (fun acc p =>
    let s := acc.1
    if !acc.2 || decide (2 ^ 57 ≤ p.1) then (s, false)
    else
      match s.walk ctx p.1 with
      | .error c => (s.walkMet ctx c p.1, false)
      | .ok l =>
        if noread && l.pte.getLsbD 10 then (s, false)
        else
          let s := s.walked ctx p.1 l false
          ((s.sectorFill ctx (l.home p.1) p.2), s.sectorCode ctx (l.home p.1) p.2 == 0)) (s, true)

/-- What reads of these ranges through the device's own path leave behind, in order, up to the first that fails. -/
def State.unitReads (s : State) (ctx : Nat) (reads : List (Nat × Nat)) (noread : Bool := false) : State :=
  (reads.foldl (fun acc r => if acc.2 then acc.1.unitFill ctx r.1 r.2 noread else acc) (s, true)).1

/-- The addresses, home addresses and bytes of a device write, or the first failure. -/
def State.unitPlan (s : State) (ctx va : Nat) (bytes : List Byte) (writeBit : Bool := true) : Except Code (List (Nat × Leaf × List Byte)) :=
  (pieces (bytes.length / 64 + 2) va bytes.length).foldl (fun acc p =>
    match acc with
    | .error c => .error c
    | .ok l =>
      if 2 ^ 57 ≤ p.1 then .error 0x09
      else
        match s.walk ctx p.1 with
        | .error c => .error c
        | .ok leaf =>
          let code := s.storeCode ctx (leaf.home p.1)
          if writeBit && !leaf.pte.getLsbD 1 then .error 0x09
          else if code != 0 then .error code
          else .ok (l ++ [(p.1, leaf, (bytes.drop (p.1 - va)).take p.2)])) (.ok [])

/-- Write a context's memory through the device's own path, whole or not at all; no rollback undoes it. The code is 0 when written. The
front end's writes obey the write bit (R66); the heddle core's writes of records, the fault unit's (R92) and the frame unit's (R392) do not. -/
def State.unitWrite (s : State) (ctx va : Nat) (bytes : List Byte) (writeBit : Bool := true) : State × Code :=
  match s.unitPlan ctx va bytes writeBit with
  | .error c => (s, c)
  | .ok l =>
    let s := l.foldl (fun s p => (s.walked ctx p.1 p.2.1 true).homeStore none ctx (p.2.1.home p.1) p.2.2) s
    (s.afterAccepted false (l.map fun p => (p.2.1.home p.1, p.2.2)), 0)

/-! ### L1 (R73, R74) -/

/-- The sector of a core's L1 that holds a home address under the context's tag. -/
def State.l1Sector (s : State) (core : CoreId) (ctx ha : Nat) : Option L1Sector :=
  s.l1.find? fun x => x.core == core && x.ctx == ctx && x.ha == sectorOf ha

/-- Bytes of a sector held in L1. -/
def L1Sector.read (x : L1Sector) (ha n : Nat) : List Byte := (x.bytes.drop (ha - x.ha)).take n

/-- Write a dirty private sector back to its home. -/
def State.l1WriteBack (s : State) (x : L1Sector) : State :=
  if !x.dirty then s
  else
    let s := s.homeStore (some x.core) x.ctx x.ha x.bytes
    { s with l1 := mapWhere (fun y => y.core == x.core && y.ctx == x.ctx && y.ha == x.ha) (fun y => { y with dirty := false }) s.l1 }

/-- Write back the dirty private sectors that satisfy a condition. -/
def State.l1WriteBackAll (s : State) (p : L1Sector → Bool) : State :=
  (s.l1.filter fun x => p x && x.dirty).foldl State.l1WriteBack s

/-- The sector lies in this line of the core's L1. -/
def L1Sector.inLine (x : L1Sector) (core : CoreId) (ctx ha : Nat) : Bool := x.core == core && x.ctx == ctx && lineOf x.ha == lineOf ha

/-- A line leaves a core's L1: its dirty sectors are written back (R74). -/
def State.l1EvictLine (s : State) (core : CoreId) (ctx ha : Nat) : State :=
  let s := s.l1WriteBackAll fun x => x.inLine core ctx ha
  { s with l1 := s.l1.filter fun x => !x.inLine core ctx ha }

/-- An L1 that holds its 1,536 lines, 384 KiB (R6), gives one up to a new one: a first candidate for eviction (R74), else one that is free. -/
def State.l1Room (s : State) (core : CoreId) (ctx ha : Nat) : State :=
  let held := s.l1.filter fun x => x.core == core
  if held.length < 1536 || held.any fun x => x.inLine core ctx ha then s
  else
    let lines := (held.map fun x => (x.ctx, lineOf x.ha)).eraseDups
    if lines.length < 1536 then s
    else
      match ((held.find? (·.evictFirst)).map fun x => (x.ctx, lineOf x.ha)).orElse fun _ => lines[Config.way s.freeIx % lines.length]? with
      | none => s
      | some l => { s.l1EvictLine core l.1 l.2 with freeIx := s.freeIx + 1 }

/-- Take a sector into a core's L1 with the home's bytes; an `.ef` load's line is the first candidate for eviction (R74). -/
def State.l1Fill (s : State) (core : CoreId) (ctx ha : Nat) (priv : Bool) (evictFirst : Bool := false) : State :=
  if (s.l1Sector core ctx ha).isSome then s
  else
    let s := s.l1Room core ctx ha
    { s with l1 := ⟨core, ctx, sectorOf ha, s.mem.readBytes (sectorOf ha) 64, priv, false, evictFirst⟩ :: s.l1 }

/-- Update the bytes of a sector present in a core's L1. -/
def State.l1Update (s : State) (core : CoreId) (ctx ha : Nat) (bytes : List Byte) : State :=
  let upd (x : L1Sector) : L1Sector := { x with bytes := overwrite x.bytes (ha - x.ha) bytes }
  { s with l1 := mapWhere (fun x => x.core == core && x.ctx == ctx && x.ha == sectorOf ha) upd s.l1 }

/-- Drop a sector from a core's L1. -/
def State.l1Drop (s : State) (core : CoreId) (ctx ha : Nat) : State :=
  { s with l1 := s.l1.filter fun x => !(x.core == core && x.ctx == ctx && x.ha == sectorOf ha) }

/-- Drop the clean global sectors of a core's L1, of one context or of every context (R284). -/
def State.l1Clear (s : State) (core : CoreId) (ctx : Option Nat) : State :=
  { s with l1 := s.l1.filter fun x => x.core != core || x.priv || (match ctx with | some c => x.ctx != c | none => false) }

end Sys2Proof.Machine
end

