-- ==== Sys2Proof/Machine/Ops.lean ====
section
/-!
DEFINITION. The named operations over registers, fragments, loops, the split stack, grids and contexts; taking an exception
(`State.raise`, R324 to R329) as one shared operation, and the return from one (`State.returnFromHandler`, R330) beside it.
-/

namespace Sys2Proof.Machine

/-! ### Registers (R25, R31, R117) -/

/-- The wave that issues: a legacy wave owns the slot of its number (R31). -/
def Warp.wave (w : Warp) : Nat := if w.legacy then w.cur.val else 0

/-- Physical place of a scalar: a legacy wave has its own 64. -/
def Warp.scalarIx (w : Warp) (r : Reg) : Fin 128 := if w.legacy then Fin.ofNat 128 (r.toNat + 64 * w.cur.val) else r.toFin

/-- A vector register has an entry in the undo region (R334). -/
def WarpLog.vector (l : WarpLog) (ix : Fin 256) : WarpLog := { l with vectors := l.vectors ||| 1#256 <<< ix.val }

/-- A scalar register has one. -/
def WarpLog.scalar (l : WarpLog) (ix : Nat) : WarpLog := { l with scalars := l.scalars ||| 1#128 <<< ix }

/-- A predicate has one. -/
def WarpLog.pred (l : WarpLog) (ix : Nat) : WarpLog := { l with preds := l.preds ||| 1#16 <<< ix }

/-- Read a scalar; s0 reads as zero. -/
def Warp.readS (w : Warp) (r : Reg) : Word := if r = 0#7 then 0#32 else w.scalars[w.scalarIx r]

/-- Write a scalar; a write to s0 is discarded. A register that is written has an entry in the undo region from then on (R334). -/
def Warp.writeS (w : Warp) (r : Reg) (v : Word) : Warp :=
  if r = 0#7 then w else { w with scalars := w.scalars.set (w.scalarIx r) v, logged := w.logged.scalar (w.scalarIx r).val }

/-- Read a scalar pair, the even register low. -/
def Warp.readS64 (w : Warp) (r : Reg) : BitVec 64 := pair64 (w.readS r) (w.readS (r + 1#7))

/-- Write a scalar pair. -/
def Warp.writeS64 (w : Warp) (r : Reg) (v : BitVec 64) : Warp := (w.writeS r (lo32 v)).writeS (r + 1#7) (hi32 v)

/-- The register of the warp's block that a vector field names (R25). -/
def Warp.vectorIx (w : Warp) (n : Nat) : Fin 256 := Fin.ofNat 256 (w.wbase + n)

/-- The lanes of the vector register that field value `n` names. -/
def Warp.readV (w : Warp) (n : Nat) : Lanes := w.vectors[w.vectorIx n]

/-- Write the lanes of a mask in a register of the block. -/
def Warp.writeBlock (w : Warp) (ix : Fin 256) (mask : Mask) (v : Lanes) : Warp :=
  let old := w.vectors[ix]
  { w with vectors := w.vectors.set ix (Vector.ofFn fun t => if mask.getLsbD t.val then v[t] else old[t]), logged := w.logged.vector ix }

/-- Write the lanes of a mask in the register that field value `n` names (R11). -/
def Warp.writeV (w : Warp) (n : Nat) (mask : Mask) (v : Lanes) : Warp := w.writeBlock (w.vectorIx n) mask v

/-- Read a predicate. -/
def Warp.readP (w : Warp) (p : Pred) : Mask := w.preds[p.toFin]

/-- Write the bits of a mask in a predicate; the other bits keep their values (R119). -/
def Warp.writeP (w : Warp) (p : Pred) (mask v : Mask) : Warp :=
  { w with preds := w.preds.set p.toFin ((v &&& mask) ||| (w.preds[p.toFin] &&& ~~~mask)), logged := w.logged.pred p.toNat }

/-- OR flags into nflags (R61). -/
def Warp.setFlags (w : Warp) (f : Word) : Warp := { w with nflags := w.nflags ||| f }

/-! ### Fragments and the program counter (R11, R97, R103) -/

/-- The fragment in the slot that issues. -/
def Warp.frag (w : Warp) : Fragment := w.slots[w.cur].frag

/-- Change the fragment in the slot that issues. -/
def Warp.setFrag (w : Warp) (f : Fragment → Fragment) : Warp :=
  { w with slots := w.slots.set w.cur { w.slots[w.cur] with frag := f w.slots[w.cur].frag } }

/-- The threads for which the instruction executes. -/
def State.mask (s : State) : Mask := s.w.frag.mask

/-- The program counter of the issuing fragment. -/
def State.pc (s : State) : Addr := s.w.frag.pc

/-- Change the current warp. -/
def State.setW (s : State) (f : Warp → Warp) : State := { s with w := f s.w }

/-- Move the issuing fragment. -/
def State.jump (s : State) (pc : Addr) : State := s.setW fun w => w.setFrag fun f => { f with pc := pc }

/-- The address is a reed slot (R97). -/
def reedSlot (a : Addr) : Bool := a.extractLsb' 2 3 == 0#3

/-- The sequential successor (R103). -/
def nextPc (pc : Addr) : Addr := if reedSlot (pc + 4#64) then pc + 8#64 else pc + 4#64

/-- A displacement target (R104). -/
def target {n : Nat} (pc : Addr) (disp : BitVec n) : Addr := pc + 4#64 * sext64 disp

/-! ### Hardware loops (R182 to R186) -/

/-- The loop levels of the warp, or of the wave that owns a slot (R31). -/
def Warp.levelsOf (w : Warp) (slot : Fin 2) : List (Fin 4) :=
  if w.legacy then (if slot = 0 then [0, 1] else [2, 3]) else [0, 1, 2, 3]

/-- The loop levels of the warp, or of the wave that issues. -/
def Warp.levels (w : Warp) : List (Fin 4) := w.levelsOf w.cur

/-- Threads of a level's owner that have not exited. -/
def Warp.levelMask (w : Warp) (l : Fin 4) : Mask := w.loops[l].owner &&& ~~~w.exited

/-- The fragment mask owns the level. -/
def Warp.ownsLevel (w : Warp) (l : Fin 4) (f : Mask) : Bool := w.loops[l].live && f == w.levelMask l

/-- The fragment mask is enclosed by the level: a proper subset. -/
def Warp.enclosed (w : Warp) (l : Fin 4) (f : Mask) : Bool :=
  w.loops[l].live && (f &&& ~~~(w.levelMask l)) == 0#32 && f != w.levelMask l

/-- The most recently started level that the fragment owns or by which it is enclosed (R182). -/
def Warp.innermost (w : Warp) (f : Mask) : Option (Fin 4) :=
  (w.levels.filter fun l => w.ownsLevel l f || w.enclosed l f).foldl
    (fun best l => match best with
      | none => some l
      | some b => if w.loops[b].order < w.loops[l].order then some l else some b) none

/-- Free a loop level. -/
def Warp.freeLevel (w : Warp) (l : Fin 4) : Warp := { w with loops := w.loops.set l ⟨false, 0, 0, 0, 0, 0⟩ }

/-- Free the levels whose owners have all exited (R186). -/
def Warp.freeDeadLevels (w : Warp) : Warp :=
  [(0 : Fin 4), 1, 2, 3].foldl (fun w l => if w.loops[l].live && w.levelMask l == 0#32 then w.freeLevel l else w) w

/-- Free the levels, of the wave that owns the slot, of which the fused mask properly contains the owners (R186). -/
def Warp.freeFusedLevels (w : Warp) (slot : Fin 2) (fused : Mask) : Warp :=
  (w.levelsOf slot).foldl (fun w l =>
    let o := w.levelMask l
    if w.loops[l].live && (o &&& ~~~fused) == 0#32 && o != fused then w.freeLevel l else w) w

/-- The loop-end action of R184 at the end word `pc`: the warp and where the fragment continues. -/
def Warp.loopEnd (w : Warp) (pc : Addr) : Nat → Warp × Addr
  | 0 => (w, nextPc pc)
  | fuel + 1 =>
    match w.innermost w.frag.mask with
    | none => (w, nextPc pc)
    | some l =>
      if !(w.ownsLevel l w.frag.mask && w.loops[l].le == pc) then (w, nextPc pc)
      else
        let lc := w.loops[l].lc - 1#32
        if lc != 0#32 then ({ w with loops := w.loops.set l { w.loops[l] with lc := lc } }, w.loops[l].ls)
        else (w.freeLevel l).loopEnd pc fuel

/-- The issuing fragment continues at next(pc), or as the loop-end action says (R103, R184). -/
def Warp.advance (w : Warp) : Warp :=
  let r := w.loopEnd w.frag.pc 5
  r.1.setFrag fun f => { f with pc := r.2 }

/-- The instruction completes without transferring control (R103, R184). -/
def State.advance (s : State) : State := { s with w := s.w.advance }

/-- Check 1 of R184: the fragment stands at the end word of a level that encloses it. -/
def Warp.enclosedEnd (w : Warp) : Bool :=
  match w.innermost w.frag.mask with
  | none => false
  | some l => w.loops[l].le == w.frag.pc && !w.ownsLevel l w.frag.mask

/-! ### Warps by name -/

/-- The present warp of an identifier. -/
def State.warp? (s : State) (id : WarpId) : Option Warp :=
  if s.w.present && s.w.id == id then some s.w else s.rest.find? fun w => w.present && w.id == id

/-- Change the warp of an identifier. -/
def State.setWarp (s : State) (id : WarpId) (f : Warp → Warp) : State :=
  if s.w.present && s.w.id == id then { s with w := f s.w }
  else { s with rest := mapWhere (fun w => w.present && w.id == id) f s.rest }

/-- All present warps. -/
def State.warps (s : State) : List Warp := (s.w :: s.rest).filter (·.present)

/-- Change the present warps that satisfy a condition. -/
def State.mapWarps (s : State) (p : Warp → Bool) (f : Warp → Warp) : State :=
  { s with w := if s.w.present && p s.w then f s.w else s.w
           rest := mapWhere (fun w => w.present && p w) f s.rest }

/-- Make the warp of an identifier the one whose turn it is. -/
def State.focus (s : State) (id : WarpId) : State :=
  if s.w.present && s.w.id == id then s
  else
    match s.rest.find? fun w => w.present && w.id == id with
    | none => s
    | some w =>
      let others := s.rest.filter fun x => !(x.present && x.id == id)
      { s with w := w, rest := if s.w.present then others ++ [s.w] else others }

/-- Remove a warp from its place. -/
def State.removeWarp (s : State) (id : WarpId) : State :=
  if s.w.present && s.w.id == id then { s with w := Warp.vacant }
  else { s with rest := s.rest.filter fun w => !(w.present && w.id == id) }

/-- The team of an identifier. -/
def State.team? (s : State) (id : TeamId) : Option Team := s.teams.find? fun t => t.id == id

/-- Change a team. -/
def State.setTeam (s : State) (id : TeamId) (f : Team → Team) : State :=
  { s with teams := mapWhere (fun t => t.id == id) f s.teams }

/-- The grid of a context by identifier. -/
def State.grid? (s : State) (ctx id : Nat) : Option Grid := s.grids.find? fun g => g.ctx == ctx && g.id == id

/-- The grid of the current warp. -/
def State.grid (s : State) : Option Grid := s.grid? s.w.id.ctx s.w.id.grid

/-- The team of the current warp. -/
def State.team (s : State) : Option Team := s.team? s.w.id.teamId

/-- A fresh name. -/
def State.fresh (s : State) : State × Nat := ({ s with nextId := s.nextId + 1 }, s.nextId)

/-! ### Private memory: the warp's own path (R74, R87) -/

/-- The code that a read in one sector through the private path meets as memory stands; 0 for none. A miss takes the whole sector (log 60). -/
def State.privReadCode (s : State) (w : Warp) (va : Nat) : Code :=
  match s.translate (.core w.core) w.id.ctx .load w.super va with
  | .error c => c
  | .ok ha => if (s.l1Sector w.core w.id.ctx ha).isSome then 0 else s.sectorCode w.id.ctx (sectorOf ha) 64

/-- Read bytes of one sector through the private path: the code met, the state with the sector in L1, and the bytes. -/
def State.privRead (s : State) (w : Warp) (va n : Nat) : State × Code × List Byte :=
  let ctx := w.id.ctx
  match s.translate (.core w.core) ctx .load w.super va with
  | .error c => (s, c, [])
  | .ok ha =>
    match s.l1Sector w.core ctx ha with
    | some x => (s.touch (.core w.core) ctx va false, 0, x.read ha n)
    | none =>
      let c := s.sectorCode ctx (sectorOf ha) 64
      if c != 0 then (s.sectorFill ctx (sectorOf ha) 64, c, [])
      else
        let s := ((s.touch (.core w.core) ctx va false).sectorFill ctx (sectorOf ha) 64).l1Fill w.core ctx ha true
        (s, 0, s.mem.readBytes ha n)

/-- Whether a write of bytes of one sector through the private path would fail; a whole sector is not filled first. -/
def State.privWriteCode (s : State) (w : Warp) (va n : Nat) : Code :=
  let ctx := w.id.ctx
  match s.translate (.core w.core) ctx .store w.super va with
  | .error c => c
  | .ok ha => if n == 64 || (s.l1Sector w.core ctx ha).isSome then (if (s.l1Sector w.core ctx ha).isSome then 0 else s.storeCode ctx ha)
              else s.sectorCode ctx (sectorOf ha) 64

/-- Write bytes of one sector through the private path, write-back and write-allocate. -/
def State.privWrite (s : State) (w : Warp) (va : Nat) (bytes : List Byte) : State :=
  let ctx := w.id.ctx
  match s.translate (.core w.core) ctx .store w.super va with
  | .error _ => s
  | .ok ha =>
    let s := s.touch (.core w.core) ctx va true
    let s := if (s.l1Sector w.core ctx ha).isSome || bytes.length == 64 then s else s.sectorFill ctx (sectorOf ha) 64
    let s := (s.l1Fill w.core ctx ha true).l1Update w.core ctx ha bytes
    { s with l1 := mapWhere (fun x => x.core == w.core && x.ctx == ctx && x.ha == sectorOf ha)
               (fun x => { x with dirty := true, priv := true }) s.l1 }

/-- Address of split-stack entry i (R19). -/
def Warp.entryVa (w : Warp) (i : Nat) : Nat := w.privBase + w.privsz * 32 + 16 * i

/-- Address of return level l of thread t (R179). -/
def Warp.returnVa (w : Warp) (l t : Nat) : Nat := w.privBase + w.privsz * 32 + 1024 + 8 * (32 * l + t)

/-- The 16 bytes of a split-stack entry (R19); `next` is the entry behind a spilled fragment in its queue. -/
def splitBytes (e : SplitEntry) (next : Option Nat) : List Byte :=
  match e with
  | .free => leBytes 16 0
  | .record parent join full fmt count =>
    leBytes 16 (2 ^ 126 + (parent.getD 0) * 2 ^ 120 + (if parent.isSome then 2 ^ 119 else 0) + count * 2 ^ 117 +
      fmt.toNat % 2 ^ 17 * 2 ^ 100 + join.toNat / 4 % 2 ^ 55 * 2 ^ 45 + full.toNat * 2 ^ 13)
  | .spilled f =>
    leBytes 16 (2 ^ 127 + (f.record.getD 0) * 2 ^ 120 + (if f.record.isSome then 2 ^ 119 else 0) + (next.getD 0) * 2 ^ 113 +
      (if next.isSome then 2 ^ 112 else 0) + f.fmt.toNat % 2 ^ 17 * 2 ^ 95 + f.pc.toNat / 4 % 2 ^ 55 * 2 ^ 40 + f.mask.toNat * 2 ^ 8)

/-- The fragment that a spilled entry's 16 bytes hold (R19, R20). -/
def spilledFrag (bytes : List Byte) (now : Nat) : Fragment :=
  let v := leNat bytes
  { pc := BitVec.ofNat 64 (bitsOf v 94 40 * 4), mask := BitVec.ofNat 32 (bitsOf v 39 8), fmt := BitVec.ofNat 32 (bitsOf v 111 95),
    record := if bitsOf v 119 119 = 1 then some (bitsOf v 125 120) else none, entered := now }

/-- The lowest-numbered free split-stack entries (R19). -/
def Warp.freeEntries (w : Warp) : List Nat := (List.range 64).filter fun i => w.split[i]? == some SplitEntry.free

/-- Set a split-stack entry. -/
def Warp.setEntry (w : Warp) (i : Nat) (e : SplitEntry) : Warp := { w with split := w.split.setIfInBounds i e }

/-- The spill queue of a slot's wave: one queue for a warp of one wave (R31). -/
def Warp.queueIx (w : Warp) (slot : Fin 2) : Fin 2 := if w.legacy then slot else 0

/-- When the slot is empty and its spill queue is not, the head moves into it, enters it in the present cycle (R33), and is to be read (R20). -/
def Warp.refillSlot (w : Warp) (now : Nat) (slot : Fin 2) : Warp :=
  if w.slots[slot].st != .empty then w
  else
    match w.spill[w.queueIx slot] with
    | [] => w
    | h :: rest =>
      { w with spill := w.spill.set (w.queueIx slot) rest, slots := w.slots.set slot ⟨.reading h, { Fragment.none with entered := now }⟩ }

/-- Both slots are refilled where they can be. -/
def Warp.refill (w : Warp) (now : Nat) : Warp := (w.refillSlot now 0).refillSlot now 1

/-- Put a fragment, or nothing, into a slot; what the old one had asked for is over (R22, R84). -/
def Warp.putSlot (w : Warp) (slot : Fin 2) (x : Slot) : Warp :=
  { w with slots := w.slots.set slot x, yielded := w.yielded.set slot false, replay := w.replay.set slot [], linkWait := w.linkWait.set slot none }

/-- Empty a slot. -/
def Warp.emptySlot (w : Warp) (slot : Fin 2) : Warp := w.putSlot slot ⟨.empty, Fragment.none⟩

/-- A fragment that belonged to split record `rec` has arrived or has ended: the count falls, and at 0 the fragments fuse (R16, R17).
A fused fragment whose threads have all exited ends in turn. `slot` is the slot freed by the last arrival, which the fused fragment enters in
the cycle `now` (R33). -/
def Warp.leaveRecord (w : Warp) (slot : Fin 2) (now : Nat) : Nat → Option Nat → Warp
  | 0, _ => w
  | _, none => w
  | fuel + 1, some i =>
    match w.split[i]? with
    | some (.record parent join full fmt count) =>
      if 1 < count then w.setEntry i (.record parent join full fmt (count - 1))
      else
        let w := w.setEntry i .free
        let mask := full &&& ~~~w.exited
        if mask = 0#32 then w.leaveRecord slot now fuel parent
        else
          let w := w.freeFusedLevels slot mask
          w.putSlot slot ⟨.live, ⟨join, mask, fmt, parent, now⟩⟩
    | _ => w

/-- The split records of the old warp that the new one has changed or freed are written to the warp's split stack (R19). R397 gives these
writes no way to fail: one that would is dropped (log 42). -/
def State.writeRecords (s : State) (old new : Warp) : State :=
  (List.range 64).foldl (fun (s : State) (i : Nat) =>
    match old.split[i]? with
    | some (.record p j f m c) =>
      let x : SplitEntry := (new.split[i]?).getD .free
      if x == SplitEntry.record p j f m c || s.privWriteCode new (new.entryVa i) 16 != 0 then s
      else s.privWrite new (new.entryVa i) (splitBytes x none)
    | _ => s) s

/-! ### Frames and grids (R257 to R269) -/

/-- The offset of a grid's fields in its frame header that mirror the frame unit's table (R259), with their bytes. -/
def Grid.fields (g : Grid) : List (Nat × List Byte) :=
  [(21, leBytes 1 g.status), (24, leBytes 4 g.children), (28, leBytes 4 g.teamsLive),
    (32, leBytes 8 (match g.waiter with | none => 0 | some (core, team) => 2 ^ 63 + core * 2 ^ 32 + team)), (40, leBytes 8 g.faultAddr)]

/-- Change a grid; each header field whose value changes is rewritten (R260). -/
def State.setGrid (s : State) (ctx id : Nat) (f : Grid → Grid) : State :=
  match s.grid? ctx id with
  | none => s
  | some g =>
    let g' := f g
    let s := ((g.fields.zip g'.fields).filter fun p => p.1 != p.2).foldl (fun s p => (s.unitWrite ctx (g.frame + p.2.1) p.2.2 false).1) s
    { s with grids := mapWhere (fun x => x.ctx == ctx && x.id == id) f s.grids }

/-- Write the live field of a kernel header (R394): the frame unit's own count, whatever software has stored there. -/
def State.writeLive (s : State) (ctx header : Nat) : State :=
  (s.unitWrite ctx (header + 32) (leBytes 4 (s.grids.countP fun g => g.ctx == ctx && g.header == header)) false).1

/-- A queue-0 event (R376): 8 bytes to the function's queue-0 status address, then MSI-X vector 1. -/
def State.queue0Event (s : State) (vf : Nat) (code : Nat) (detail : Nat) : State :=
  match s.vf? vf with
  | none => s
  | some v =>
    let addr := ((v.queues.find? fun q => q.n == 0).map (·.status)).getD 0
    (s.send (.hostBusWrite addr (leBytes 8 (0xFFFFFFFF * 2 ^ 32 + detail % 2 ^ 24 * 2 ^ 8 + code)))).msix vf 1

/-- Write 8 bytes to an address of a user queue's context; a failed write is dropped and event 0x43 names the queue (R298). -/
def State.reportWrite (s : State) (vf queue ctx va : Nat) (bytes : List Byte) : State :=
  let r := s.unitWrite ctx va bytes
  if r.2 == 0 then r.1 else s.queue0Event vf 0x43 queue

/-- The device's copy of the context's control block (R327), if its 64 bytes can be read. -/
def State.controlBlock (s : State) (ctx : Nat) : Option (List Byte) :=
  match s.ctx? ctx with
  | none => none
  | some c =>
    match s.unitRead ctx c.recordTable 64 with
    | .ok b => some b
    | .error _ => none

/-- The entry address of the supervisor handler, 0 for none. A control block that something other than a record-write has changed since R327
checked it may name a reed slot, where no fragment ever stands (R97): it counts as naming no handler, the model's choice (log 68). -/
def State.handlerAddr (s : State) (ctx : Nat) : Nat :=
  let a := ((s.controlBlock ctx).map fun b => leAt b 0 8).getD 0
  if a / 4 % 8 = 0 then 0 else a

/-- Write a fault record (R325): the state, and the record's address, 0 when it could not be written. A control block that cannot be read when a
record is due names no queue that the device could know: no record is written, no overflow bit is set, since the byte lies in the same block, and
vector 0 is sent; the model's choice (log 81). -/
def State.faultRecord (s : State) (ctx : Nat) (record : List Byte) : State × Nat :=
  match s.ctx? ctx with
  | none => (s, 0)
  | some c =>
    let lost (s : State) : State :=
      match s.controlBlock ctx with
      | none => s
      | some b => (s.unitWrite ctx (c.recordTable + 24) (leBytes 1 (leAt b 24 1 ||| 1)) false).1
    match s.controlBlock ctx with
    | none => (s.msix c.vf 0, 0)
    | some b =>
      let fq := leAt b 8 8
      let size := leAt b 16 4
      let producer := leAt b 20 4
      if size = 0 || fq = 0 || size ≤ producer then ((lost s).msix c.vf 0, 0)
      else
        let va := fq + 64 * (producer % size)
        let r := s.unitWrite ctx va record false
        if r.2 != 0 then ((lost s).msix c.vf 0, 0)
        else (((r.1.unitWrite ctx (c.recordTable + 20) (leBytes 4 (producer + 1)) false).1).msix c.vf 0, va)

/-! ### Checkpoints (R333, R334) -/

/-- The warps of a context. -/
def State.warpsOf (s : State) (ctx : Nat) : List Warp := s.warps.filter fun w => w.id.ctx == ctx

/-- The claim of a team that stands in its save record (R338): its contents are kept there. -/
def State.claimSaved (s : State) (claim : Option TeamId) : Bool :=
  match claim with
  | none => false
  | some id => ((s.team? id).map fun t => t.st == .saved).getD false

/-- What a checkpoint of the context keeps. -/
def State.snapshot (s : State) (ctx : Nat) : Snapshot where
  warps := s.warpsOf ctx
  teams := s.teams.filter fun t => t.id.ctx == ctx
  slots := (s.cores.flatMap fun c => (List.range 16).filterMap fun i =>
    match c.slots[i]? with
    | some x => if (x.claim.map (·.ctx)) == some ctx then some (c.id, i, x) else none
    | none => none) ++ (((s.ctx? ctx).map (·.snapshot.slots)).getD []).filter fun x => s.claimSaved x.2.2.claim
  accs := (s.cores.flatMap fun c => (List.range 4).filterMap fun i =>
    match c.accs[i]? with
    | some x => if (x.claim.map (·.ctx)) == some ctx then some (c.id, i, x) else none
    | none => none) ++ (((s.ctx? ctx).map (·.snapshot.accs)).getD []).filter fun x => s.claimSaved x.2.2.claim
  ops := (s.ops.filter fun o => o.ctx == ctx) ++
    (((s.ctx? ctx).map (·.snapshot.ops)).getD []).filter fun o => s.claimSaved (some o.warp.teamId)
  stores := s.stores.filter fun p => p.warp.ctx == ctx
  pools := ((s.ctx? ctx).map (·.pagePools)).getD []
  nextCopy := s.nextId
  landed := []

/-- The context of an accumulator's contents: that of the team that holds it, or that held it last. -/
def Accumulator.ctx (a : Accumulator) : Option Nat := (a.claim.map (·.ctx)).or a.lastCtx

/-- The undo entries of a context are discarded (R333). -/
def State.clearUndo (s : State) (ctx : Nat) : State :=
  let s := s.mapWarps (fun w => w.id.ctx == ctx) fun w => { w with logged := WarpLog.empty }
  let s : State :=
    { s with
      teams := mapWhere (fun t => t.id.ctx == ctx) (fun t => { t with pages := t.pages.map fun p => { p with logged := none } }) s.teams
      cores := s.cores.map fun k => { k with accs := k.accs.map fun a => if a.ctx == some ctx then { a with logged := none } else a } }
  s.setCtx ctx fun c => { c with undo := [], undoGone := [] }

/-- A checkpoint of the context begins (R333): dirty private lines are written back, undo entries are discarded, the state is recorded, and its
warps issue nothing until the checkpoint ends. -/
def State.checkpoint (s : State) (ctx : Nat) : State :=
  let s := (s.l1WriteBackAll fun x => x.ctx == ctx).clearUndo ctx
  s.setCtx ctx fun c => { c with snapshot := s.snapshot ctx, checkpointAt := s.clock, paused := true }

/-- An irrevocable action of a warp has been performed (R335). -/
def State.irrevocable (s : State) (w : WarpId) : State := (s.setWarp w fun x => { x with awaitCheckpoint := true }).checkpoint w.ctx

/-- Bits of a number that are 1. -/
def bitCount (n : Nat) (v : Nat) : Nat := (List.range n).countP v.testBit

/-- Bytes of the undo entries of a warp (R334): 128 for a vector register, 4 for a scalar or a predicate, 512 for its other state. -/
def WarpLog.bytes (l : WarpLog) : Nat :=
  128 * bitCount 256 l.vectors.toNat + 4 * bitCount 128 l.scalars.toNat + 4 * bitCount 16 l.preds.toNat + (if l.block then 512 else 0)

/-- The bytes of those entries that stand in the region of the core on which the warp is. -/
def WarpLog.here (l : WarpLog) : Nat := l.bytes - (l.away.map (·.2)).sum

/-- The bytes of a list that are of a core. -/
def bytesOn (core : CoreId) (l : List (CoreId × Nat)) : Nat := ((l.filter fun e => e.1 == core).map (·.2)).sum

/-- The warp leaves its core; its entries stay in that core's region. -/
def Warp.leaveLog (w : Warp) : Warp :=
  if w.logged.here = 0 then w else { w with logged := { w.logged with away := (w.core, w.logged.here) :: w.logged.away } }

/-- The entries of a warp by core. -/
def Warp.logBytes (w : Warp) : List (CoreId × Nat) := (w.core, w.logged.here) :: w.logged.away

/-- Undo entries outlive the warps and pages that they are of, until the context's next checkpoint. -/
def State.keepLog (s : State) (ctx : Nat) (l : List (CoreId × Nat)) : State :=
  match l.filter fun e => e.2 != 0 with
  | [] => s
  | l => s.setCtx ctx fun c => { c with undoGone := l ++ c.undoGone }

/-- Bytes in use in a core's undo region for a context (R334): lines of DRAM, registers and state of warps, scratchpad pages, accumulators; an
item has one entry from its first write after the checkpoint on. -/
def State.undoUsed (s : State) (core : CoreId) (c : Ctx) : Nat :=
  256 * c.undo.countP (fun u => u.core == core) + bytesOn core c.undoGone +
    ((s.warpsOf c.id).map fun w => bytesOn core w.logBytes).sum +
    2048 * ((s.teams.filter fun t => t.id.ctx == c.id).map fun t => t.pages.countP fun p => p.logged == some core).sum +
    65536 * (s.cores.map fun k => k.accs.toList.countP fun a => a.logged == some core && a.ctx == some c.id).sum

/-- The part of a core's undo region beyond which checkpoints are taken: 3 MiB (R334). -/
def undoLimit : Nat := 3 * 2 ^ 20

/-- A core's undo region passes 3 MiB (R334). -/
def State.undoFull (s : State) (core : CoreId) : Bool := decide (undoLimit < (s.ctxs.map (s.undoUsed core)).sum)

/-- When a core's undo region passes 3 MiB, every context with entries in it takes a checkpoint (R334). -/
def State.undoOverflow (s : State) (core : CoreId) : State :=
  if !s.undoFull core then s
  else (s.ctxs.filter fun c => s.undoUsed core c != 0).foldl (fun s c => s.checkpoint c.id) s

/-- No region can have passed its limit: what all contexts have logged together is too little, each warp with the most that its entries take,
33,856 bytes. -/
def State.undoSmall (s : State) : Bool :=
  let one (c : Ctx) : Nat :=
    256 * c.undo.length + (c.undoGone.map (·.2)).sum + 2048 * ((s.teams.filter fun t => t.id.ctx == c.id).map (·.pages.length)).sum
  decide ((s.ctxs.map one).sum + 33856 * s.warps.length + 4 * 65536 * s.cores.length ≤ undoLimit)

/-- The undo regions of all cores are looked at (R334). -/
def State.undoChecks (s : State) : State :=
  if s.undoSmall then s else ((s.cores.map (·.id)) ++ s.warps.map (·.core)).eraseDups.foldl State.undoOverflow s

/-! ### Retirement, termination, kills (R264 to R269) -/

/-- Return a frame to its class's free list, kept in ascending order (R258). -/
def FramePool.free' (p : FramePool) (clsIx addr : Nat) : FramePool :=
  { p with free := p.free.set clsIx (insertBy (fun a b => decide (a < b)) addr ((p.free[clsIx]?).getD [])) }

/-- The index of a frame class: 0 for 256 bytes to 8 for 65,536. -/
def classIx (cls : Nat) : Nat := Nat.log2 cls - 8

/-- The retirement of a grid whose counts are both 0 (R265, R301, R319, R394). -/
def State.gridRetire (s : State) (g : Grid) : State :=
  let status := if g.killed then 0x12 else if g.code != 0 then 0x11 else 0x10
  let code : Code := if g.killed then 0 else g.code
  let s := s.setGrid g.ctx g.id fun g => { g with status := status }
  let order := s.nextId
  let s := { s with nextId := order + 1, spent := true }
  let s := match g.parent with
    | none => s
    | some p =>
      let s := s.setGrid g.ctx p fun x =>
        let x := { x with children := x.children - 1 }
        if status == 0x11 && !x.faultSeen then { x with faultSeen := true, faultAddr := g.recordAddr } else x
      match g.launcher with
      | none => s
      | some t =>
        let note (t : Team) : Team :=
          { t with joinSet := mapWhere (fun c => c.grid == g.id && c.outcome.isNone) (fun c => { c with outcome := some (status, code, order) }) t.joinSet }
        let id : TeamId := ⟨g.ctx, p, t⟩
        -- no rollback undoes a retirement (R276)
        (s.setTeam id note).setCtx g.ctx fun c =>
          { c with snapshot := { c.snapshot with teams := mapWhere (fun t => t.id == id) note c.snapshot.teams } }
  let s := s.setCtx g.ctx fun c => { c with framePool := c.framePool.map fun p => p.free' (classIx g.cls) g.frame }
  let s := match g.task, (s.ctx? g.ctx).bind (·.taskTable) with
    | some i, some (base, _, _) => (s.unitWrite g.ctx (base + 32 * i + 19) (leBytes 1 0)).1
    | _, _ => s
  let s := match g.source, g.packet with
    | .queue vf q, some (seq, signal) =>
      if signal = 0 then s
      else s.reportWrite vf q g.ctx signal (leBytes 8 (seq.toNat * 2 ^ 32 + code.toNat * 2 ^ 8 + status))
    | _, _ => s
  let s : State := { s with grids := s.grids.filter fun x => !(x.ctx == g.ctx && x.id == g.id) }
  s.writeLive g.ctx g.header

/-- Retire every grid whose live teams and live children are both 0, lowest identifier first (R264 to R266). -/
def State.retireGrids : Nat → State → State
  | 0, s => s
  | fuel + 1, s =>
    match (s.grids.filter fun g => g.teamsLive == 0 && g.children == 0).foldl
        (fun (best : Option Grid) g => match best with | none => some g | some b => if g.id < b.id then some g else some b) none with
    | none => s
    | some g => State.retireGrids fuel (s.gridRetire g)

/-- Release the claims of a team (R222), on whichever core they are. A tile that was only reserved for its move keeps its last holder. -/
def State.releaseClaims (s : State) (id : TeamId) : State :=
  let held (c : Core) : Bool := (s.team? id).any fun t => t.core == c.id
  { s with cores := s.cores.map fun c =>
      { c with
        slots := c.slots.map fun x => if x.claim == some id then ⟨none, false, none, false⟩ else x
        accs := c.accs.map fun x =>
          if x.claim == some id then { x with claim := none, release := false, lastCtx := if held c then some id.ctx else x.lastCtx } else x } }

/-- The free resources of a core change now (R320). -/
def State.roomChanged (s : State) (core : CoreId) : State :=
  if s.cores.any fun c => c.id == core then s.setCore core fun c => { c with freeSince := s.clock } else s

/-- A team leaves its core (R264): its claims are released and its barriers, scratchpad and team slot are freed. -/
def State.teamRetire (s : State) (t : Team) : State :=
  let s := (s.releaseClaims t.id).roomChanged t.core
  { s with teams := s.teams.filter (fun x => x.id != t.id), latches := s.latches.filter fun l => l.team != t.id }

/-- The terminating grids with no warp left: all their teams count as retired (R267). -/
def State.settle (s : State) : State :=
  let dead := s.grids.filter fun g => g.status == 3 && g.teamsLive != 0 && !(s.warps.any fun w => w.id.ctx == g.ctx && w.id.grid == g.id)
  let s := dead.foldl (fun s g =>
    let s := (s.teams.filter fun t => t.id.ctx == g.ctx && t.id.grid == g.id).foldl (fun s t => s.teamRetire t) s
    s.setGrid g.ctx g.id fun g => { g with teamsLive := 0 }) s
  let s := State.retireGrids (s.grids.length + 1) s
  -- no rollback undoes a retirement, and what is read after a completion is final (R276, R293; log 17)
  (dead.map (·.ctx)).eraseDups.foldl (fun s ctx =>
    (s.checkpoint ctx).setCtx ctx fun c => { c with paused := ((s.ctx? ctx).map (·.paused)).getD false }) s

/-- The waiter field: the latest team of the grid held in `joinw` (R259). -/
def State.joinWaiter (s : State) (ctx grid : Nat) : State :=
  let held := (s.warps.filter fun w => w.id.ctx == ctx && w.id.grid == grid).filterMap fun w => w.joining.map fun n => (n, w.core.n, w.id.team)
  let last := held.foldl (fun (best : Option (Nat × Nat × Nat)) x =>
    match best with | none => some x | some b => if b.1 < x.1 then some x else some b) none
  s.setGrid ctx grid fun g => { g with waiter := last.map (·.2) }

/-- The next step comes in a later cycle (R266, R267). -/
def State.endCycle (s : State) : State := { s with spent := true }

/-- Stop the warps of a grid and discard its unplaced teams and its warps' matrix operations and rendezvous (R267, R324). -/
def State.stopGrid (s : State) (ctx id : Nat) : State :=
  let s := s.mapWarps (fun w => w.id.ctx == ctx && w.id.grid == id) fun w => { w with stopped := true, opFaults := [], joining := none }
  let s := s.joinWaiter ctx id
  let s := s.setGrid ctx id fun g => { g with teamsLive := g.teamsLive - (g.teams - g.nextTeam), nextTeam := g.teams }
  { s with ops := s.ops.filter (fun o => !(o.warp.ctx == ctx && o.warp.grid == id)),
           latches := s.latches.filter fun l => !(l.team.ctx == ctx && l.team.grid == id) }

/-- Kill a grid and its live descendants (R268); a grid that has begun termination keeps its reason. -/
def State.killGrids (s : State) (ctx : Nat) : Nat → List Nat → State
  | 0, _ => s
  | _, [] => s
  | fuel + 1, id :: more =>
    let children := (s.grids.filter fun g => g.ctx == ctx && g.parent == some id).map (·.id)
    let s := match s.grid? ctx id with
      | none => s
      | some g =>
        if g.status == 3 then s
        else (s.setGrid ctx id fun g => { g with status := 3, killed := true }).stopGrid ctx id
    s.killGrids ctx fuel (more ++ children)

/-- The warp goes before another one of its grid: by team, then by warp number (R267). -/
def warpBefore (a b : WarpId) : Bool := decide (a.team < b.team) || (a.team == b.team && decide (a.warp < b.warp))

/-- Faults have stopped warps of a grid in the present cycle, other than the warp (R267). -/
def State.faultedWith (s : State) (id : WarpId) : List WarpId := s.faulted.filter fun f => f.ctx == id.ctx && f.grid == id.grid && f != id

/-- Terminate a grid for a fault (R267): its status, its warps, its unplaced teams, its descendants. Of the warps that faults stop in one cycle,
the lowest gives the code: `lead` is the lowest of those stopped now. -/
def State.terminate (s : State) (ctx id : Nat) (code : Code) (recordAddr : Nat) (lead : Option WarpId := none) : State :=
  match s.grid? ctx id with
  | none => s
  | some g =>
    let first (w : WarpId) : Bool := let l := s.faultedWith w; !l.isEmpty && l.all (warpBefore w)
    let s := if g.status == 3 then (if !g.killed && lead.any first then s.setGrid ctx id fun g => { g with code := code, recordAddr := recordAddr } else s)
      else (s.endCycle.setGrid ctx id fun g => { g with status := 3, code := code, recordAddr := recordAddr }).stopGrid ctx id
    let children := (s.grids.filter fun g => g.ctx == ctx && g.parent == some id).map (·.id)
    (s.killGrids ctx (s.grids.length + 1) children).settle

/-! ### Taking an exception (R323 to R332) -/

/-- A fault as it arises: its code, the threads in which it arose, the faulting address, and the fields of faultinfo (R326). -/
structure FaultInfo where
  code : Code
  mask : Mask
  va : Nat := 0
  write : Bool := false
  fetch : Bool := false
  op : Bool := false
  detail : Nat := 0
  deriving DecidableEq, Repr

/-- The faultinfo word (R326). -/
def FaultInfo.word (f : FaultInfo) : Word :=
  BitVec.ofNat 32 (f.detail % 2 ^ 16 * 2 ^ 16 + (if f.op then 2 ^ 10 else 0) + (if f.fetch then 2 ^ 9 else 0) +
    (if f.write then 2 ^ 8 else 0) + f.code.toNat)

/-- The codes that route H delivers to the supervisor handler (R323). -/
def routeH (c : Code) : Bool := c == 0x08 || c == 0x17 || c == 0x18

/-- The 64 bytes of a fault record (R325). -/
def recordBytes (s : State) (w : Warp) (code nested : Code) (source : Nat) (pc : Addr) (va : Nat) (mask : Mask) (info : Word) : List Byte :=
  let kernel := ((s.grid? w.id.ctx w.id.grid).map (·.kernel)).getD 0
  leBytes 1 code.toNat ++ leBytes 1 nested.toNat ++ leBytes 1 source ++ leBytes 1 0 ++ leBytes 4 w.id.grid ++ leBytes 4 w.id.team ++
    leBytes 2 w.core.n ++ leBytes 1 w.id.warp ++ leBytes 1 0 ++ leBytes 8 (pc.toNat % 2 ^ 57) ++ leBytes 8 (va % 2 ^ 57) ++
    leBytes 4 mask.toNat ++ leBytes 4 info.toNat ++ leBytes 8 kernel ++ leBytes 8 s.clock ++ leBytes 8 0

/-- The current warp stops and a fault record is written (R324 effects 1 and 2): the state, the code that the termination reports and
the record's address. In supervisor mode the record names the fault being handled, and the new code is nested (R329). For an access that the
warp makes on its own account while a handler runs, R397 names other values of pc, va and source than R329: here R329's are written, the
model's choice (log 67). -/
def State.recordStop (s : State) (f : FaultInfo) (pc : Addr) : State × Code × Nat :=
  let w := s.w
  let source := if f.op then 1 else 0
  let r := match w.handler with
    | some h => (h.code, recordBytes s w h.code f.code (if h.info.getLsbD 10 then 1 else 0) h.frag.pc h.va h.mask h.info)
    | none => (f.code, recordBytes s w f.code 0 source pc f.va f.mask f.word)
  let s := { s with w := { w with stopped := true, recordStands := true, hold := Vector.replicate 2 none }, faulted := s.w.id :: s.faulted }
  let rec' := s.faultRecord w.id.ctx r.2
  (rec'.1, r.1, rec'.2)

/-- Route S (R324): the warp stops, a record is written, the grid is terminated. -/
def State.stopWarpAt (s : State) (f : FaultInfo) (pc : Addr) : State :=
  let r := s.recordStop f pc
  r.1.terminate s.w.id.ctx s.w.id.grid r.2.1 r.2.2 (some s.w.id)

/-- Route S for the instruction at the issuing fragment's program counter. -/
def State.stopWarp (s : State) (f : FaultInfo) : State := s.stopWarpAt f s.pc

/-- Entry of the supervisor handler (R328): the fragment, wbase and s112 to s127 are kept, the handler fragment continues at the
handler's address with the threads of the fault, wbase and fmt are 0, the bank is zeroed, the fault registers are set. Bits 1:0 of a
program counter are zero (R96). A legacy wave has only 64 scalars (R31), and R328 does not say which registers s112 to s127 are for it: here the
physical scalars 112 to 127, which are s48 to s63 of wave 1, are kept and zeroed, whichever wave faulted; the model's choice (log 80). -/
def Warp.enterHandler (w : Warp) (addr : Nat) (f : FaultInfo) (op : Option Nat) (noUser : Bool) : Warp :=
  let keep : HandlerSave :=
    ⟨w.cur, w.frag, w.wbase, Vector.ofFn fun i => w.scalars[112 + i.val], f.code, f.va, f.mask, f.word, noUser, op⟩
  { w with
    handler := some keep
    super := true
    wbase := 0
    scalars := Vector.ofFn fun i => if 112 ≤ i.val then 0#32 else w.scalars[i]
    logged := { w.logged with scalars := w.logged.scalars ||| 0xFFFF#128 <<< 112 }
    faultInfo := f.word
    faultVa := f.va
    faultMask := f.mask
    slots := w.slots.set w.cur ⟨.live, ⟨BitVec.ofNat 64 (addr / 4 * 4), f.mask, 0, none, w.frag.entered⟩⟩
    yielded := w.yielded.set w.cur false
    replay := w.replay.set w.cur []
    linkWait := w.linkWait.set w.cur none }

/-- A fault of the current warp's issuing fragment (R324): the one operation that takes an exception. -/
def State.raise (s : State) (f : FaultInfo) : State :=
  let addr := s.handlerAddr s.w.id.ctx
  if routeH f.code && !s.w.super && addr != 0 then s.setW fun w => w.enterHandler addr f none false
  else s.stopWarp f

/-- A fault of the instruction in all threads of the fragment (R127, `fault(c)` of R129). -/
def State.raiseCode (s : State) (code : Code) : State := s.raise { code := code, mask := s.mask }

/-- One fault in several warps of a team at once (R29): each stops and writes its record, in ascending warp number, and the lowest one
gives the code of the termination, that of the fault being handled in supervisor mode (R329), and the record (R267). `held` names the warps
and the slots of their instructions. -/
def State.raiseTogether (s : State) (team : TeamId) (held : List (Nat × Fin 2)) (code : Code) (va : Nat := 0) : State :=
  let back := s.w.id
  let r := (sortBy (fun a b => decide (a.1 < b.1)) held).foldl (fun (acc : State × Option (Code × Nat × WarpId)) a =>
    match acc.1.warp? ⟨team.ctx, team.grid, team.team, a.1⟩ with
    | none => acc
    | some w =>
      if w.stopped then acc
      else
        let s := (acc.1.focus w.id).setW fun w => { w with cur := a.2 }
        let q := s.recordStop { code := code, mask := s.mask, va := va } s.pc
        (q.1, some (acc.2.getD (q.2.1, q.2.2, w.id)))) (s, none)
  let s := match r.2 with
    | none => r.1
    | some q => r.1.terminate team.ctx team.grid q.1 q.2.1 (some q.2.2)
  s.focus back

/-- A split-stack access that the warp makes on its own account for a fragment fails: route S for every code (R397). -/
def State.stopOwnAccess (s : State) (code : Code) (f : Fragment) (va : Nat) (write : Bool) : State :=
  s.stopWarpAt { code := code, mask := f.mask, va := va, write := write } f.pc

/-- Every thread of the warp has exited. -/
def Warp.allExited (w : Warp) : Bool := w.exited == 0xFFFFFFFF#32

/-- The fragment in a slot of a warp is held in a rendezvous latch (R29). -/
def State.latched (s : State) (id : WarpId) (slot : Fin 2) : Bool :=
  s.latches.any fun l => l.team == id.teamId && l.arrived.any fun a => a.1 == id.warp && a.2.2 == slot

/-- The slots of the current warp in the order of R14: the one that did not issue last goes first. -/
def Warp.slotOrder (w : Warp) : List (Fin 2) := if w.lastSlot = 0 then [1, 0] else [0, 1]

/-- The slot whose fragment would issue next (R14): a live one that no latch holds. -/
def State.nextSlot? (s : State) : Option (Fin 2) :=
  s.w.slotOrder.find? fun k => s.w.slots[k].st == .live && !s.latched s.w.id k

/-- Deliver the oldest waiting operation fault of the current warp (R219, R328, R331): route H for a page fault, else route S. -/
def State.deliverOpFault (s : State) : State :=
  match s.w.opFaults with
  | [] => s
  | f :: rest =>
    let slot := s.nextSlot?
    if s.w.super || s.w.stopped || (slot.isNone && !s.w.allExited) then s
    else
      let live := slot.isSome
      let s := s.setW fun w => { w with opFaults := rest, cur := slot.getD w.cur }
      let mask : Mask := if live then s.w.frag.mask else 1#32
      let info : FaultInfo := { code := f.code, mask := mask, va := f.va, write := f.write, op := true, detail := f.opcode }
      let addr := s.handlerAddr s.w.id.ctx
      if routeH f.code && addr != 0 then s.setW fun w => w.enterHandler addr info (some f.op) (!live)
      else s.stopWarp info

/-- The return from a handler (R330, R253): everything kept at entry is restored, the supervisor bit is cleared, the fault registers
read 0 again (R326), and a faulted operation may be performed again. Without a user fragment the handler fragment dissolves (R328). -/
def Warp.leaveHandler (w : Warp) (h : HandlerSave) : Warp :=
  { w with
    handler := none
    super := false
    wbase := h.wbase
    scalars := Vector.ofFn fun i => if 112 ≤ i.val then h.bank[i.val - 112]! else w.scalars[i]
    logged := { w.logged with scalars := w.logged.scalars ||| 0xFFFF#128 <<< 112 }
    faultInfo := 0
    faultVa := 0
    faultMask := 0
    slots := w.slots.set h.slot (if h.noUser then ⟨.empty, Fragment.none⟩ else ⟨.live, h.frag⟩) }

/-- `rfe` of the current warp. -/
def State.returnFromHandler (s : State) : State :=
  match s.w.handler with
  | none => s
  | some h =>
    let s := s.setW fun w => w.leaveHandler h
    let s := match h.op with
      | none => s
      | some id => { s with ops := mapWhere (fun o => o.id == id) (fun o => { o with faulted := false }) s.ops }
    s.deliverOpFault

/-! ### Not ready (R13, R22) -/

/-- The instruction does not issue: its slot waits, and nothing else changes, but that the beginning of a wait for a link is kept (R364). -/
def State.holdFor (s : State) (h : Hold) : State := s.setW fun w =>
  { w with hold := w.hold.set w.cur (some h)
           linkWait := if h == .link then w.linkWait.set w.cur (some (w.linkWait[w.cur].getD s.clock)) else w.linkWait }

end Sys2Proof.Machine
end

