-- ==== Sys2Proof/Machine/Operands.lean ====
section
/-!
DEFINITION. What every instruction names: vector and scalar registers, feature, privilege, encoded code addresses; the fault ranks 3
to 7 of R127 and the loop check of R184 as one check, `State.precheck`, and `State.checked`, through which every meaning goes.
-/

namespace Sys2Proof.Machine

/-- Size in bytes of a size field (R113). -/
def sizeOf : BitVec 2 → Nat
  | 0 => 4
  | 1 => 8
  | _ => 16

/-- Registers that hold data of a size (R192). -/
def dataRegs (size : Nat) : Nat := (size + 3) / 4

/-- A uniform operand names a scalar, otherwise a vector (R110). -/
def vecIf (u : BitVec 1) (b : Reg) : List (Nat × Nat) := if u = 0 then [(b.toNat, 1)] else []

/-- The vector registers that an instruction reaches through its fields: first register and how many (R25, R117). -/
def vectorFields : Instr → List (Nat × Nat)
  | .vadd u _ d a b | .vsub u _ d a b | .vmul u _ d a b | .vmin u _ d a b | .vmax u _ d a b | .vbfe u _ d a b
  | .vpk u _ d a b | .vupk u _ d a b | .vshfl u _ d a b | .vfadd u _ d a b | .vfmul u _ d a b | .vfma u _ d a b | .vfsub u _ d a b =>
      (d.toNat, 1) :: (a.toNat, 1) :: vecIf u b
  | .vmad u m d a b => (d.toNat, if m = 1 then 2 else 1) :: (a.toNat, 1) :: vecIf u b
  | .vand u d a b | .vor u d a b | .vxor u d a b | .vshl u d a b | .vshr u d a b | .vsra u d a b | .vbfi u d a b
  | .vfmin u d a b | .vfmax u d a b => (d.toNat, 1) :: (a.toNat, 1) :: vecIf u b
  | .vcmp u _ _ a b | .vcmpn u _ _ a b | .vfcmp u _ _ a b => (a.toNat, 1) :: vecIf u b
  | .vsel d a _ | .vpopc d a | .vclz d a | .vxf d a _ | .vcvt _ d a _ _ _ => [(d.toNat, 1), (a.toNat, 1)]
  | .vmov u d b => (d.toNat, 1) :: vecIf u b
  | .vaddi d a _ | .vandi d a _ | .vori d a _ | .vxori d a _ | .vmuli d a _ => [(d.toNat, 1), (a.toNat, 1)]
  | .vshli d a _ | .vshri d a _ | .vsrai d a _ => [(d.toNat, 1), (a.toNat, 1)]
  | .vcmpi _ _ a _ => [(a.toNat, 1)]
  | .vldi d _ | .vfldi d _ | .vgetid d _ => [(d.toNat, 1)]
  | .vred _ a _ => [(a.toNat, 1)]
  | .vscan d a _ | .vhadm d a _ => [(d.toNat, 1), (a.toNat, 1)]
  | .ldgB8 _ _ d a _ | .ldgB16 _ _ d a _ | .ldgB32 _ _ d a _ | .stgB8 _ _ d a _ | .stgB16 _ _ d a _ | .stgB32 _ _ d a _ =>
      [(d.toNat, 1), (a.toNat, 2)]
  | .ldgB64 _ _ d a _ | .stgB64 _ _ d a _ => [(d.toNat, 2), (a.toNat, 2)]
  | .ldgB128 _ _ d a _ | .stgB128 _ _ d a _ => [(d.toNat, 4), (a.toNat, 2)]
  | .lds z _ d a _ | .sts z _ d a _ | .ldp z _ d a _ | .stp z _ d a _ => [(d.toNat, dataRegs (sizeOf z)), (a.toNat, 1)]
  | .ldx z k d a _ _ | .stx z k d a _ _ => (d.toNat, dataRegs (sizeOf z)) :: if k = 0 then [(a.toNat, 1)] else []
  | .atomgI32 _ d a b | .atomgN32 _ d a b | .atomgF32 _ d a b | .atomdI32 _ d a b | .atomyI32 _ d a b =>
      [(d.toNat, 1), (a.toNat, 2), (b.toNat, 1)]
  | .atomgI64 _ d a b | .atomgN64 _ d a b | .atomdI64 _ d a b | .atomyI64 _ d a b => [(d.toNat, 2), (a.toNat, 2), (b.toNat, 2)]
  | .atomsI32 _ d a b | .atomsN32 _ d a b | .atomsF32 _ d a b => [(d.toNat, 1), (a.toNat, 1), (b.toNat, 1)]
  | .atomxI32 c d a _ _ => [(d.toNat, if c = 7 then 2 else 1), (a.toNat, 1)]
  | .atomxI64 c d a _ _ => [(d.toNat, if c = 7 then 4 else 2), (a.toNat, 1)]
  | .drainv _ y _ => [(y.toNat, 4)]
  | .cpyg _ _ _ y _ => [(y.toNat, 2)]
  | .enq _ v _ => [(v.toNat, 4)]
  | .pref _ a => [(a.toNat, 2)]
  | _ => []

/-- A uniform operand's scalar. -/
def scaIf (u : BitVec 1) (b : Reg) : List Nat := if u = 0 then [] else [b.toNat]

/-- `n` scalars from a first one. -/
def scalarsFrom (r : Reg) (n : Nat) : List Nat := rangeFrom r.toNat n

/-- The scalars that an instruction reads or writes through its fields (R117). -/
def scalarFields : Instr → List Nat
  | .sadd w _ d a b | .ssub w _ d a b =>
      if w = 0 then [d.toNat, a.toNat, b.toNat] else scalarsFrom d 2 ++ scalarsFrom a 2 ++ scalarsFrom b 2
  | .smul _ d a b | .smin _ d a b | .smax _ d a b | .scmp _ d a b => [d.toNat, a.toNat, b.toNat]
  | .sdiv _ d a b => scalarsFrom d 2 ++ [a.toNat, b.toNat]
  | .sand d a b | .sor d a b | .sxor d a b | .sandn d a b | .sshl d a b | .sshr d a b | .ssra d a b => [d.toNat, a.toNat, b.toNat]
  | .sclz d a | .spopc d a => [d.toNat, a.toNat]
  | .srd d _ => [d.toNat]
  | .swr a => [a.toNat]
  | .saddi d a _ | .sandi d a _ | .sori d a _ | .sxori d a _ | .smuli d a _ => [d.toNat, a.toNat]
  | .sshli d a _ | .sshri d a _ | .ssrai d a _ => [d.toNat, a.toNat]
  | .scmpi d a _ _ => [d.toNat, a.toNat]
  | .sldi d _ | .sldhi d _ => [d.toNat]
  | .vadd u _ _ _ b | .vsub u _ _ _ b | .vmul u _ _ _ b | .vmad u _ _ _ b | .vmin u _ _ _ b | .vmax u _ _ _ b | .vbfe u _ _ _ b
  | .vpk u _ _ _ b | .vupk u _ _ _ b | .vshfl u _ _ _ b | .vfadd u _ _ _ b | .vfmul u _ _ _ b | .vfma u _ _ _ b | .vfsub u _ _ _ b
  | .vcmp u _ _ _ b | .vcmpn u _ _ _ b | .vfcmp u _ _ _ b => scaIf u b
  | .vand u _ _ b | .vor u _ _ b | .vxor u _ _ b | .vshl u _ _ b | .vshr u _ _ b | .vsra u _ _ b | .vbfi u _ _ b
  | .vfmin u _ _ b | .vfmax u _ _ b => scaIf u b
  | .vmov u _ b => scaIf u b
  | .vvote d _ _ => [d.toNat]
  | .vred d _ _ => [d.toNat]
  | .vhadm _ _ s => [s.toNat]
  | .ldgB8 _ k _ _ b | .ldgB16 _ k _ _ b | .ldgB32 _ k _ _ b | .ldgB64 _ k _ _ b | .ldgB128 _ k _ _ b
  | .stgB8 _ k _ _ b | .stgB16 _ k _ _ b | .stgB32 _ k _ _ b | .stgB64 _ k _ _ b | .stgB128 _ k _ _ b
  | .lds _ k _ _ b | .sts _ k _ _ b | .ldp _ k _ _ b | .stp _ k _ _ b => if k = 0 then [b.toNat] else []
  | .ldx _ k _ a _ _ | .stx _ k _ a _ _ => if k = 0 then [] else [a.toNat]
  | .brz s _ | .brnz s _ | .loop s _ => [s.toNat]
  | .jmpr s | .callr s => scalarsFrom s 2
  | .gang x | .tclaim _ x | .trel _ x | .accz x => [x.toNat]
  | .tfetch x y => x.toNat :: scalarsFrom y 3
  | .mma h g _ x y z | .mmag h g _ x y z => x.toNat :: (scalarsFrom y (if h = 0 then 1 else 3) ++ scalarsFrom z (if g = 0 then 1 else 3))
  | .mmsp h _ _ x y z => x.toNat :: (scalarsFrom y (if h = 0 then 1 else 3) ++ scalarsFrom z 6)
  | .drainmx x y z => x.toNat :: (scalarsFrom y 3 ++ scalarsFrom z 3)
  | .drainv x _ z => [x.toNat, z.toNat]
  | .cpy b d x y z =>
      scalarsFrom x (if b = 0 then 1 else 2) ++
        (match d.toNat with
        | 0 => scalarsFrom y 3 ++ scalarsFrom z 1
        | 1 => scalarsFrom y 1 ++ scalarsFrom z 3
        | 2 => scalarsFrom y 3 ++ scalarsFrom z 3
        | _ => scalarsFrom y 2 ++ scalarsFrom z 1)
  | .cpyg b _ x _ z => scalarsFrom x (if b = 0 then 1 else 2) ++ scalarsFrom z 2
  | .pft y => scalarsFrom y 3
  | .bari _ a | .bara _ a | .barw _ a => [a.toNat]
  | .bart _ a b => [a.toNat, b.toNat]
  | .launch d c f _ => scalarsFrom d 2 ++ [c.toNat, f.toNat]
  | .joinw s | .depdec s | .fmt s => [s.toNat]
  | .lxrd _ d => scalarsFrom d 2
  | .enq _ _ n => [n.toNat]
  | .mappg a _ => scalarsFrom a 2
  | _ => []

/-- The feature of an instruction (R126). -/
def featureOf : Instr → Option Feature
  | .gang _ | .tclaim _ _ | .trel _ _ | .tfetch _ _ | .mma _ _ _ _ _ _ | .accz _ | .drainmx _ _ _ | .drainv _ _ _ | .tcommit | .pft _ =>
      some .matrix
  | .mmag _ _ _ _ _ _ => some .adapterGather
  | .mmsp _ _ _ _ _ _ => some .structuredSparsity
  | .launch _ _ _ _ | .joinw _ => some .nestedLaunch
  | .enq _ _ _ => some .workGraph
  | .depdec _ => some .countedTasks
  | .atomdI32 _ _ _ _ | .atomdI64 _ _ _ _ | .atomyI32 _ _ _ _ | .atomyI64 _ _ _ _ => some .domainAtomics
  | .swpt _ => some .variantSwitching
  | _ => none

/-- The instructions that a legacy wave may not issue (R31). -/
def legacyForbidden : Instr → Bool
  | .gang _ | .mma _ _ _ _ _ _ | .mmag _ _ _ _ _ _ | .mmsp _ _ _ _ _ _ => true
  | _ => false

/-- Privileged instructions (R125): rfe, mappg, and srd of numbers 18 to 22. -/
def privileged : Instr → Bool
  | .rfe | .mappg _ _ => true
  | .srd _ a => decide (18 ≤ a.toNat)
  | _ => false

/-- The instructions of the classes C, A and Y (R114 to R116); the other words are of the classes S, SI, V, VI and M. -/
def controlAsyncSystem : Instr → Bool
  | .bra _ | .brd _ _ _ | .brany _ _ | .brall _ _ | .brz _ _ | .brnz _ _ | .jmpr _ | .call _ | .callr _ | .ret | .loop _ _ | .lbrk
  | .exit | .trap _ | .nop | .yield | .brkpt
  | .gang _ | .tclaim _ _ | .trel _ _ | .tfetch _ _ | .mma _ _ _ _ _ _ | .mmag _ _ _ _ _ _ | .mmsp _ _ _ _ _ _ | .accz _
  | .drainmx _ _ _ | .drainv _ _ _ | .tcommit | .cpy _ _ _ _ _ | .cpyg _ _ _ _ _ | .cpcommit | .pft _
  | .wait _ _ _ _ | .fence _ _ | .bari _ _ | .bara _ _ | .barw _ _ | .bart _ _ _ | .launch _ _ _ _ | .joinw _ | .lxrd _ _ | .enq _ _ _
  | .depdec _ | .winb _ | .fmt _ | .swpt _ | .rfe | .mappg _ _ | .pref _ _ | .sleep _ => true
  | _ => false

/-- The instructions that may issue in supervisor mode (R329). -/
def supervisorMay : Instr → Bool
  | .bra _ | .brany _ _ | .brall _ _ | .brz _ _ | .brnz _ _ | .jmpr _ | .nop | .trap _ | .brkpt | .wait _ _ _ _ | .fence _ _ | .lxrd _ _
  | .rfe | .mappg _ _ | .sleep _ => true
  | i => i.isWord && !controlAsyncSystem i

/-- The code addresses that an instruction encodes (R105). -/
def codeTargets (pc : Addr) : Instr → List Addr
  | .bra d | .call d => [target pc d]
  | .brd _ t j => [target pc t, target pc j]
  | .brany _ d | .brall _ d => [target pc d]
  | .brz _ d | .brnz _ d => [target pc d]
  | .loop _ b => [pc + 4#64 * b.setWidth 64]
  | _ => []

/-- The register targets of jmpr and callr (R106, R178). -/
def registerTarget (w : Warp) : Instr → Option Addr
  | .jmpr s | .callr s => some (w.readS64 s)
  | _ => none

/-- A register target is misaligned or in a reed slot (R106). -/
def badTarget (a : Addr) : Bool := a.extractLsb' 0 2 != 0#2 || reedSlot a

/-- A feature is masked for the warp's function (R126). -/
def State.masked (s : State) (f : Feature) : Bool := ((s.vfOf s.w.id.ctx).map fun v => v.masked.contains f).getD false

/-- A vector register that a field reaches lies outside the window's block (R25); winb's own check is of the same kind. -/
def outsideBlock (w : Warp) (i : Instr) : Bool :=
  ((vectorFields i).any fun p => decide (w.valloc < w.wbase + p.1 + p.2)) ||
    (w.legacy && (scalarFields i).any fun n => decide (64 ≤ n)) ||
    (match i with
      | .winb b => decide (w.valloc ≤ 16 * b.toNat)
      | _ => false)

/-- The first fault of ranks 3 to 7 of R127, and the loop check of R184, that the instruction meets; none when it may execute. No rule ranks
the 0x01 of R329: the model puts it with rank 3, before a masked feature's 0x02, the model's choice (log 43). -/
def State.precheck (s : State) (i : Instr) : Option Code :=
  if !i.wellFormed || (s.w.super && !supervisorMay i) then some 0x01
  else if (match featureOf i with | some f => s.masked f | none => false) || (s.w.legacy && legacyForbidden i) then some 0x02
  else if privileged i && !s.w.super then some 0x03
  else if outsideBlock s.w i then some 0x05
  else if (codeTargets s.pc i).any reedSlot || (match registerTarget s.w i with | some a => badTarget a | none => false) then some 0x04
  else if s.w.enclosedEnd then some 0x14
  else none

/-- An instruction with the checks that precede its own execution. -/
def State.checked (s : State) (i : Instr) (body : State → State) : State :=
  match s.precheck i with
  | some c => s.raiseCode c
  | none => body s

/-- What a meaning answers. -/
abbrev Result := Host.Outcome State Fault Refusal

/-- The instruction changes the warp and completes without transferring control. -/
def State.finish (s : State) (f : Warp → Warp) : State := (s.setW f).advance

/-- The operand b of a vector instruction in lane t (R149): s[b] when u is set, otherwise v[b][t]. -/
def Warp.operandB (w : Warp) (u : BitVec 1) (b : Reg) (t : Fin 32) : Word := if u = 0 then (w.readV b.toNat)[t] else w.readS b

/-- Write one vector register lane by lane, for the active threads, and OR the flags of the active lanes. -/
def Warp.lanewise (w : Warp) (d : Nat) (f : Fin 32 → Word × Word) : Warp :=
  let m := w.frag.mask
  let flags := m.threads.foldl (fun acc t => acc ||| (f t).2) 0
  (w.writeV d m (Vector.ofFn fun t => (f t).1)).setFlags flags

/-- A predicate from a condition of each active lane, with the flags of the active lanes (R119). -/
def Warp.predicate (w : Warp) (p : Pred) (f : Fin 32 → Bool × Word) : Warp :=
  let m := w.frag.mask
  let flags := m.threads.foldl (fun acc t => acc ||| (f t).2) 0
  (w.writeP p m (Mask.ofFn fun t => (f t).1)).setFlags flags

end Sys2Proof.Machine
end

