-- ==== Sys2Proof/Machine/CrossThread.lean ====
section
/-!
DEFINITION. The meanings of the cross-thread instructions (R166 to R172).

A legacy wave runs them within its own 16 threads: `Warp.waveBase` and `Warp.waveWidth` give its lanes.
-/

namespace Sys2Proof.Machine

/-- The first lane of the issuing wave. -/
def Warp.waveBase (w : Warp) : Nat := if w.legacy then 16 * w.cur.val else 0

/-- The lanes of the issuing wave. -/
def Warp.waveWidth (w : Warp) : Nat := if w.legacy then 16 else 32

/-- The source lane of `vshfl` for lane t and selector value k, if it lies in the wave (R167). -/
def shuffleSource (m : BitVec 2) (base width t sel : Nat) : Option Nat :=
  let k := sel % width
  let r := t - base
  let src : Option Nat :=
    match m with
    | 0 => some k
    | 1 => some (r ^^^ k)
    | 2 => if k ≤ r then some (r - k) else none
    | _ => some (r + k)
  match src with
  | some x => if x < width then some (base + x) else none
  | none => none

/-- `vshfl` (R167): a lane without an active source keeps its own value. -/
def execVshfl (u : BitVec 1) (m : BitVec 2) (d a b : Reg) (s : State) : Result :=
  .next (s.checked (.vshfl u m d a b) fun s =>
    let x := s.w.readV a.toNat
    s.finish fun w => w.lanewise d.toNat fun t =>
      match shuffleSource m w.waveBase w.waveWidth t.val (w.operandB u b t).toNat with
      | some src => (if w.frag.mask.getLsbD src then x[Fin.ofNat 32 src] else x[t], 0)
      | none => (x[t], 0))

/-- `vvote` (R168): a ballot, any or all of the predicate over the active threads. -/
def execVvote (d : Reg) (p : Pred) (m : BitVec 2) (s : State) : Result :=
  .next (s.checked (.vvote d p m) fun s =>
    let w := s.w
    let on := w.readP p &&& w.frag.mask
    let v : Word :=
      match m with
      | 0 => on >>> w.waveBase
      | 1 => boolWord (on != 0#32)
      | _ => boolWord (on == w.frag.mask)
    s.finish fun w => w.writeS d v)

/-- The identity of a reduction code (R169). -/
def reduceIdent (c : BitVec 4) : Word :=
  match c with
  | 1 => 0x7FFFFFFF#32
  | 2 => 0x80000000#32
  | 3 => 0xFFFFFFFF#32
  | 5 => 0xFFFFFFFF#32
  | 8 => 0x80000000#32
  | 9 => nanF32
  | 10 => nanF32
  | _ => 0#32

/-- The operation of a reduction code with its flags (R169). -/
def reduceOp (c : BitVec 4) (x y : Word) : Word × Word :=
  match c with
  | 0 => (x + y, 0)
  | 1 => (minWord false x y, 0)
  | 2 => (maxWord false x y, 0)
  | 3 => (minWord true x y, 0)
  | 4 => (maxWord true x y, 0)
  | 5 => (x &&& y, 0)
  | 6 => (x ||| y, 0)
  | 7 => (x ^^^ y, 0)
  | 8 => addF32 0 x y
  | 9 => minMaxF32 false x y
  | _ => minMaxF32 true x y

/-- One level of the pairwise tree. -/
def reducePairs (c : BitVec 4) : List Word → List (Word × Word)
  | x :: y :: rest => reduceOp c x y :: reducePairs c rest
  | _ => []

/-- The pairwise tree of R169 over the values, with the flags. -/
def reduceTree (c : BitVec 4) : Nat → List Word → Word → Word × Word
  | 0, x, f => ((x[0]?).getD 0, f)
  | fuel + 1, x, f =>
    if x.length ≤ 1 then ((x[0]?).getD 0, f)
    else
      let r := reducePairs c x
      reduceTree c fuel (r.map (·.1)) (r.foldl (fun f p => f ||| p.2) f)

/-- The values of the wave's lanes, the identity where inactive. -/
def Warp.reduceInput (w : Warp) (c : BitVec 4) (a : Reg) : List Word :=
  (rangeFrom w.waveBase w.waveWidth).map fun t =>
    if w.frag.mask.getLsbD t then (w.readV a.toNat)[Fin.ofNat 32 t] else reduceIdent c

/-- `vred` (R169). -/
def execVred (d a : Reg) (c : BitVec 4) (s : State) : Result :=
  .next (s.checked (.vred d a c) fun s =>
    let r := reduceTree c 5 (s.w.reduceInput c a) 0
    s.finish fun w => (w.writeS d r.1).setFlags r.2)

/-- The steps of R170 with distances h, 2h, … below the number of lanes. -/
def scanSteps (c : BitVec 4) : Nat → Nat → List Word → Word → List Word × Word
  | 0, _, x, f => (x, f)
  | fuel + 1, h, x, f =>
    if x.length ≤ h then (x, f)
    else
      let y := (List.range x.length).map fun t =>
        if h ≤ t then reduceOp c ((x[t - h]?).getD 0) ((x[t]?).getD 0) else ((x[t]?).getD 0, 0)
      scanSteps c fuel (2 * h) (y.map (·.1)) (y.foldl (fun f p => f ||| p.2) f)

/-- `vscan` (R170): inclusive prefixes. -/
def execVscan (d a : Reg) (c : BitVec 4) (s : State) : Result :=
  .next (s.checked (.vscan d a c) fun s =>
    let r := scanSteps c 5 1 (s.w.reduceInput c a) 0
    s.finish fun w =>
      (w.writeV d.toNat w.frag.mask (Vector.ofFn fun t => (r.1[t.val - w.waveBase]?).getD 0)).setFlags r.2)

/-- The keyed input of `vhadm` for lanes from `base`: inactive lanes are +0 and sign bits flip. -/
def Warp.hadamardInput (w : Warp) (a : Reg) (key : Word) (base keyBase : Nat) : List Word :=
  (rangeFrom base 16).map fun t =>
    let x := if w.frag.mask.getLsbD t then (w.readV a.toNat)[Fin.ofNat 32 t] else 0#32
    if key.getLsbD (t - keyBase) then negBits x else x

/-- `vhadm` (R171): lanes 0 to 15 and 16 to 31 separately; a legacy wave transforms its own half under bits 15:0 of the key.
The scaling of lanes that are not active sets no flag: only results that are written are rounded there (log 9). -/
def execVhadm (d a k : Reg) (s : State) : Result :=
  .next (s.checked (.vhadm d a k) fun s =>
    let w := s.w
    let key := w.readS k
    let half (base : Nat) : List Word × Word :=
      if w.legacy && base != w.waveBase then ([], 0)
      else
        let r := hadamard 4 1 (w.hadamardInput a key base w.waveBase) 0
        let out := r.1.map fun x => mulF32 0 x 0x3E800000#32
        let flags := (out.zip (rangeFrom base 16)).foldl (fun f p => if w.frag.mask.getLsbD p.2 then f ||| p.1.2 else f) r.2
        (out.map (·.1), flags)
    let lo := half 0
    let hi := half 16
    s.finish fun w =>
      (w.writeV d.toNat w.frag.mask
        (Vector.ofFn fun t => if t.val < 16 then (lo.1[t.val]?).getD 0 else (hi.1[t.val - 16]?).getD 0)).setFlags (lo.2 ||| hi.2))

/-- `vgetid` (R172). -/
def execVgetid (d : Reg) (k : BitVec 10) (s : State) : Result :=
  .next (s.checked (.vgetid d k) fun s =>
    let w := s.w
    let warps := (s.team.map (·.warps)).getD 0
    let lane (t : Nat) : Nat :=
      if w.legacy then
        let id := 2 * w.id.warp + w.wave
        match k.toNat with
        | 0 => t % 16
        | 1 => id * 16 + t % 16
        | _ => (w.id.team * 2 * warps + id) * 16 + t % 16
      else
        match k.toNat with
        | 0 => t
        | 1 => w.id.warp * 32 + t
        | _ => (w.id.team * warps + w.id.warp) * 32 + t
    s.finish fun w => w.lanewise d.toNat fun t => (BitVec.ofNat 32 (lane t.val), 0))

end Sys2Proof.Machine
end

