-- ==== Sys2Proof/Machine/Scratchpad.lean ====
section
/-!
DEFINITION. The virtual scratchpad of a team (R82 to R86): pages, their sectors' marks, page-in and eviction.
-/

namespace Sys2Proof.Machine

/-- A page of the team's map; a page never touched is in the zero state (R83). -/
def Team.page (t : Team) (n : Nat) : Page := (t.pages.find? fun p => p.n == n).getD ⟨n, .zero, [], false, false, [], none, 0, none⟩

/-- Change a page of the team's map. -/
def Team.setPage (t : Team) (n : Nat) (f : Page → Page) : Team :=
  { t with pages := upsert (fun p => p.n == n) f ⟨n, .zero, [], false, false, [], none, 0, none⟩ t.pages }

/-- The pages that a byte range touches (R82). -/
def pagesOf (off len : Nat) : List Nat := rangeFrom (off / 2048) ((off + len - 1) / 2048 + 1 - off / 2048)

/-- The pages among those given that are not resident (R84). -/
def Team.missing (t : Team) (ps : List Nat) : List Nat := ps.eraseDups.filter fun n => (t.page n).st != .resident

/-- The bytes of a range of the scratchpad; every page must be resident. -/
def Team.spadRead (t : Team) (off len : Nat) : List Byte :=
  (rangeFrom off len).map fun o => (((t.page (o / 2048)).bytes)[o % 2048]?).getD 0

/-- The 64-byte sectors of a byte range: page and index within it. -/
def spadSectors (off len : Nat) : List (Nat × Nat) :=
  (rangeFrom (off / 64) ((off + len - 1) / 64 + 1 - off / 64)).map fun k => (k / 32, k % 32)

/-- The code that an access to a range meets: that of the first marked sector (R84, R94); 0 for none. -/
def Team.spadCode (t : Team) (off len : Nat) : Code :=
  ((spadSectors off len).findSome? fun p => ((t.page p.1).marks.find? fun m => m.1 == p.2).map (·.2)).getD 0

/-- An access has met the marks of a range: every later access receives 0x15 (R84). -/
def Team.spadMet (t : Team) (off len : Nat) : Team :=
  (spadSectors off len).foldl (fun t p =>
    t.setPage p.1 fun g => { g with marks := g.marks.map fun m => if m.1 == p.2 then (m.1, 0x15) else m }) t

/-- Write bytes within one page, whose old bytes the undo region of the team's core keeps from the first write on (R334). -/
def Team.spadWritePage (t : Team) (off : Nat) (bytes : List Byte) : Team :=
  t.setPage (off / 2048) fun g =>
    { g with bytes := overwrite g.bytes (off % 2048) bytes, dirty := true, filled := true, logged := g.logged.or (some t.core) }

/-- Write a range that may cross pages. -/
def Team.spadWrite (t : Team) : Nat → Nat → List Byte → Team
  | 0, _, _ => t
  | fuel + 1, off, bytes =>
    let k := 2048 - off % 2048
    if bytes.isEmpty then t else (t.spadWritePage off (bytes.take k)).spadWrite fuel (off + k) (bytes.drop k)

/-- Clear the mark of a sector that a store covers wholly (R84). -/
def Team.spadClear (t : Team) (page sector : Nat) : Team :=
  t.setPage page fun g => { g with marks := g.marks.filter fun m => m.1 != sector }

/-- An access to pages makes them the most recently used. -/
def Team.spadUse (t : Team) (ps : List Nat) (now : Nat) : Team :=
  ps.eraseDups.foldl (fun t n => t.setPage n fun g => { g with used := now }) t

/-- The physical pages that a core holds: resident pages of its teams and remote pages that it keeps (R6, R86). -/
def State.physicalPages (s : State) (core : CoreId) : List (TeamId × Page) :=
  s.teams.flatMap fun t => (t.pages.filter fun p =>
    (p.st == .resident && t.core == core) || p.st == .remote core).map fun p => (t.id, p)

/-- The scratchpad range of a copy's side on a team, if any. -/
def CopySide.spadRange : CopySide → Option (Nat × Nat)
  | .spad off len => some (off, len)
  | _ => none

/-- An incomplete copy that was accepted on the core has the page as its source or destination (R84, R342). -/
def State.copyPins (s : State) (t : TeamId) (n : Nat) (core : Option CoreId) : Bool :=
  s.copies.any fun c => c.warp.teamId == t && (match core with | some k => c.core == k | none => true) &&
    ([c.src, c.dst].any fun side => match side.spadRange with
      | some (off, len) => len != 0 && (pagesOf off len).contains n
      | none => false)

/-- A page is pinned while it is the source or destination of an incomplete copy, which a range-tracker entry covers meanwhile, and while an
instruction that touches it is about to be replayed, all its pages being resident (R84). -/
def State.pinned (s : State) (t : TeamId) (n : Nat) : Bool :=
  s.copyPins t n none ||
    (s.warps.any fun w => w.id.teamId == t && !w.stopped &&
      w.replay.toList.any fun ps => ps.contains n && (s.team? t).any fun t => (t.missing ps).isEmpty)

/-- Backing address of a page of the team (R85). -/
def State.backingVa (s : State) (t : Team) (n : Nat) : Nat :=
  ((s.ctx? t.id.ctx).map (·.backing)).getD 0 + t.slot * 2 ^ 21 + n * 2048

/-- The backing area of a page is not what R85 asks software to keep: its walk fails, whatever the outcome, or it lies outside device DRAM or,
for a write, is not writable (R66). R84 treats this as a translation failure. -/
def State.backingBad (s : State) (ctx va : Nat) (write : Bool) : Bool :=
  (pieces 34 va 2048).any fun p =>
    match s.walk ctx p.1 with
    | .error _ => true
    | .ok leaf => !isDram (leaf.home p.1) || (write && !leaf.pte.getLsbD 1)

/-- Mark lines of L2 as lines of a backing area (R76, R85). -/
def State.backingLines (s : State) (ctx : Nat) (has : List Nat) : State :=
  has.foldl (fun s ha => s.setLine ctx ha fun l => { l with backing := true }) s

/-- A page gives up its physical page (R84, step 2). One never written is in the zero state again (R83). One written since its page-in is
written to its team's backing area, and its entry becomes backed; a failure is recorded in the entry. A poison mark travels with its
sector, into DRAM metadata when the page is written, and with the entry when it need not be. -/
def State.spadEvict (s : State) (t : Team) (p : Page) : State :=
  let done (s : State) (st : PageState) (marks : List (Nat × Code)) (lost : Option Code) : State :=
    s.setTeam t.id fun t => t.setPage p.n fun g => { g with st := st, bytes := [], dirty := false, marks := marks, lost := lost }
  if !p.dirty then if p.filled then done s .backed p.marks p.lost else done s .zero [] none
  else
    let va := s.backingVa t p.n
    if s.backingBad t.id.ctx va true then done s .backed [] (some 0x09) else
    match s.unitPlan t.id.ctx va p.bytes with
    | .error c => done s .backed [] (some (if c == 0x0A then 0x0A else 0x09))
    | .ok plan =>
      let s := plan.foldl (fun s q => (s.walked t.id.ctx q.1 q.2.1 true).homeStore (some t.core) t.id.ctx (q.2.1.home q.1) q.2.2) s
      let s := s.afterAccepted true (plan.map fun q => (q.2.1.home q.1, q.2.2))
      let s := s.backingLines t.id.ctx (plan.map fun q => q.2.1.home q.1)
      let s := (plan.zip (List.range plan.length)).foldl (fun s q =>
        if p.marks.any fun m => m.1 == q.2 then s.setMark (sectorOf (q.1.2.1.home q.1.1)) (some .poisoned) else s) s
      done s .backed [] none

/-- An access of a copy makes the pages that the map holds the most recently used. -/
def Team.copyUse (t : Team) (ps : List Nat) (now : Nat) : Team :=
  { t with pages := mapWhere (fun g => ps.contains g.n) (fun g => { g with used := now }) t.pages }

/-- The pages of a core that may be evicted, least recently used first. -/
def State.victims (s : State) (core : CoreId) : List (TeamId × Page) :=
  sortBy (fun a b => decide (a.2.used < b.2.used)) ((s.physicalPages core).filter fun x => !s.pinned x.1 x.2.n)

/-- Take a free physical page on the core (R84, step 1), evicting one when none is free. None when every page is pinned. -/
def State.freePage (s : State) (core : CoreId) : Option State :=
  if (s.physicalPages core).length < 256 then some s
  else
    match s.victims core with
    | [] => none
    | (id, p) :: _ => (s.team? id).map fun t => s.spadEvict t p

/-- Fill a page from backing (R84, steps 3 and 4): bytes of each sector, zeros and a mark where it cannot be filled cleanly. A walk that ends
in any code is a failed translation, 0x09; 0x0A, 0x15 and 0x16 are what the sector itself met. Marks kept in the entry stay. -/
def State.spadFill (s : State) (t : Team) (p : Page) : List Byte × List (Nat × Code) :=
  let va := s.backingVa t p.n
  let lost : Option Code := if p.lost.isNone && s.backingBad t.id.ctx va false then some 0x09 else p.lost
  (List.range 32).foldl (fun acc i =>
    let at' := va + 64 * i
    let r : Except Code (List Byte) :=
      match lost, s.walk t.id.ctx at' with
      | some c, _ => .error c
      | none, .error _ => .error 0x09
      | none, .ok _ => s.unitRead t.id.ctx at' 64
    match r, p.marks.find? fun m => m.1 == i with
    | .ok b, none => (acc.1 ++ b, acc.2)
    | .ok b, some m => (acc.1 ++ b, acc.2 ++ [m])
    | .error c, m =>
      let code : Code := (m.map (·.2)).getD (if c == 0x0A || c == 0x15 || c == 0x16 then c else 0x09)
      (acc.1 ++ List.replicate 64 0, acc.2 ++ [(i, code)])) ([], [])

/-- What filling a page from backing leaves behind: its sectors are in L2, in lines of the backing area, and a failing one is poisoned. -/
def State.spadFilled (s : State) (ctx va : Nat) : State :=
  (List.range 32).foldl (fun s i =>
    match s.walk ctx (va + 64 * i) with
    | .error _ => s
    | .ok l => (s.unitFill ctx (va + 64 * i) 64).1.backingLines ctx [l.home (va + 64 * i)]) s

/-- Page-in of one page of a team on its core (R84), from zero, from the core that the team left, or from backing. -/
def State.pageIn (s : State) (id : TeamId) (n : Nat) : State :=
  match s.team? id with
  | none => s
  | some t =>
    let p := t.page n
    let put (s : State) (bytes : List Byte) (marks : List (Nat × Code)) (dirty filled : Bool) : State :=
      let used := s.nextId
      { s with nextId := used + 1 }.setTeam id fun t => t.setPage n fun g =>
        { g with st := .resident, bytes := bytes, marks := marks, dirty := dirty, filled := filled, lost := none, used := used }
    match p.st with
    | .resident => s
    | .zero => match s.freePage t.core with | none => s | some s => put s (List.replicate 2048 0) [] false false
    | .remote old => if old != t.core && s.copyPins id n (some old) then s
        else match s.freePage t.core with | none => s | some s => put s p.bytes p.marks p.dirty p.filled
    | .backed => match s.freePage t.core with
        | none => s
        | some s => let r := s.spadFill t p; put (s.spadFilled t.id.ctx (s.backingVa t n)) r.1 r.2 false true

end Sys2Proof.Machine
end

