-- ==== Sys2Proof/Machine/Access.lean ====
section
/-!
DEFINITION. The shared operations of the memory instructions: address formation (R193), the checks of R196, issuing a load, store or
atomic (R194), performing one at its home (R197 to R208), and the two events by which loads return and stores are acknowledged.
-/

namespace Sys2Proof.Machine

/-! ### Addresses and checks -/

/-- A lane's address as R196 reports it: the lane and its address or offset. -/
abbrev LaneAddr := Nat × Nat

/-- The active threads. -/
def State.lanes (s : State) : List Nat := s.mask.threads.map (·.val)

/-- Lane t of a vector field as a number. -/
def Warp.vnat (w : Warp) (n t : Nat) : Nat := ((w.readV n)[Fin.ofNat 32 t]).toNat

/-- The offset operand of a memory instruction (R112, R193): a scalar, or imm7 times the size. -/
def Warp.memOffset (w : Warp) (k : BitVec 1) (b : Reg) (size : Nat) : Nat := if k = 0 then (w.readS b).toNat else b.toNat * size

/-- Global addresses: the vector pair plus the offset, modulo 2^64. -/
def State.globalAddrs (s : State) (a : Reg) (off : Nat) : List LaneAddr :=
  s.lanes.map fun t => (t, (s.w.vnat (a.toNat + 1) t * 2 ^ 32 + s.w.vnat a.toNat t + off) % 2 ^ 64)

/-- Offsets of scratchpad and private accesses: exact, no wrap. -/
def State.offsetAddrs (s : State) (a : Reg) (off : Nat) : List LaneAddr := s.lanes.map fun t => (t, s.w.vnat a.toNat t + off)

/-- Offsets of lexical accesses: the vector or scalar a plus imm3 times the size. -/
def State.lexicalAddrs (s : State) (k : BitVec 1) (a : Reg) (i : BitVec 3) (size : Nat) : List LaneAddr :=
  s.lanes.map fun t => (t, (if k = 0 then s.w.vnat a.toNat t else (s.w.readS a).toNat) + i.toNat * size)

/-- The first check that some lane fails: its code and the failing lanes (R196). -/
def firstBad : List (Code × (LaneAddr → Bool)) → List LaneAddr → Option (Code × List LaneAddr)
  | [], _ => none
  | (c, p) :: more, lanes => if lanes.any p then some (c, lanes.filter p) else firstBad more lanes

/-- A mask of lane numbers. -/
def maskOf (lanes : List Nat) : Mask := lanes.foldl (fun m t => m ||| (1#32 <<< t)) 0#32

/-- Raise a fault of some lanes with the address of the lowest-numbered one (R196). -/
def State.raiseLanes (s : State) (c : Code) (lanes : List LaneAddr) (write : Bool) : State :=
  s.raise { code := c, mask := maskOf (lanes.map (·.1)), va := ((lanes.head?).map (·.2)).getD 0, write := write }

/-- A register that the instruction names is leased (R210, R218). -/
def State.leased (s : State) (i : Instr) : Bool :=
  (vectorFields i).any fun p => s.w.leases.any fun l => decide (s.w.wbase + p.1 ≤ l.1) && decide (l.1 < s.w.wbase + p.1 + p.2)

/-- The order of fault codes of walks and of performed requests (R196, R197): 0x09 before 0x08 in translation, then 0x0A, 0x16, 0x15. -/
def worst (order : List Code) (lanes : List (LaneAddr × Code)) : Option (Code × List LaneAddr) :=
  (order.find? fun c => lanes.any fun l => l.2 == c).map fun c => (c, (lanes.filter fun l => l.2 == c).map (·.1))

/-- Codes of translation in order. -/
def walkOrder : List Code := [0x09, 0x08, 0x0A, 0x16, 0x15]

/-- Codes of performed requests in order (R197). -/
def performOrder : List Code := [0x0A, 0x09, 0x16, 0x15, 0x08]

/-- Translate every lane, or the fault of R196 order 5. -/
def State.translateLanes (s : State) (a : Access) (lanes : List LaneAddr) : Except (Code × List LaneAddr) (List (LaneAddr × Nat)) :=
  let w := s.w
  let r := lanes.map fun l => (l, s.translate (.core w.core) w.id.ctx a w.super l.2)
  let bad := r.filterMap fun p => match p.2 with | .error c => some (p.1, c) | .ok _ => none
  match worst walkOrder bad with
  | some f => .error f
  | none => .ok (r.filterMap fun p => match p.2 with | .ok ha => some (p.1, ha) | .error _ => none)

/-- Translations that an access uses are cached and their entries marked accessed and dirty. -/
def State.touchLanes (s : State) (lanes : List LaneAddr) (write : Bool) : State :=
  lanes.foldl (fun s l => s.touch (.core s.w.core) s.w.id.ctx l.2 write) s

/-! ### Requests, outstanding accesses, ownership of lines (R194, R286) -/

/-- Sectors of a list of pieces. -/
def sectorsOf (l : List LaneReq) : List Nat := (l.map fun r => sectorOf r.ha).eraseDups

/-- Outstanding loads of a warp (R194): its loads and atomics, without the words that a `ret` waits for. -/
def Warp.outLoads (w : Warp) : Nat := w.loads.countP fun x => x.kind != .returnWords

/-- An atomic. -/
def LoadKind.isAtomic : LoadKind → Bool
  | .atomic .. => true
  | _ => false

/-- Outstanding stores of a warp: its stores and atomics that nothing has accepted (R194). -/
def State.outStores (s : State) (w : Warp) : Nat :=
  (s.stores.filter fun p => p.warp == w.id && !p.acked).length + (w.loads.filter fun l => l.kind.isAtomic && l.accepted.isNone).length

/-- Requests of a core that are in use (R194): one for each sector that an access in flight touches. -/
def State.requests (s : State) (core : CoreId) : Nat :=
  ((s.stores.filter fun p => p.core == core && !p.acked).map (·.reqs)).sum +
    ((s.warps.filter fun w => w.core == core).map fun w => (w.loads.map (·.reqs)).sum).sum

/-- A counter that the instruction would raise stands at its limit (R194). -/
def State.countersFull (s : State) (load store : Bool) : Option Hold :=
  if load && decide (63 ≤ s.w.outLoads) then some .loadCount
  else if store && decide (63 ≤ s.outStores s.w) then some .storeCount
  else if 2048 ≤ s.requests s.w.core then some .loadCount
  else none

/-- Physical slots that an operation names. -/
def MatrixOp.slots (o : MatrixOp) : List Nat :=
  let src (x : MatrixSource) : List Nat := match x with | .slot p => p | _ => []
  match o.work with
  | .tfetch p _ _ _ _ => p
  | .multiply _ _ a bs _ => src a ++ bs.flatMap fun b => src b.2.2
  | _ => []

/-- The accumulator tile that an operation names. -/
def MatrixOp.acc (o : MatrixOp) : Option Nat :=
  match o.work with
  | .tfetch .. => none
  | .multiply a .. => some a
  | .accz a => some a
  | .drainmx a .. => some a
  | .drainv a .. => some a

/-- An unfinished engine operation as accesses and other operations meet it (R214, R286): the lines that it owns and those that it reads, and the
slots and the accumulator that it names. -/
structure Holder where
  id : Nat
  warp : WarpId
  core : CoreId
  lines : List Nat
  reads : List Nat
  slots : List Nat
  acc : Option Nat
  deriving DecidableEq, Repr

/-- A matrix operation as a holder. -/
def MatrixOp.holder (o : MatrixOp) : Holder := ⟨o.id, o.warp, o.core, o.lines, o.reads, o.slots, o.acc⟩

/-- A copy as a holder. -/
def Copy.holder (c : Copy) : Holder := ⟨c.id, c.warp, c.core, c.lines, c.reads, [], none⟩

/-- The unfinished operations that can be performed as the machine stands: copies, and the queued operations of teams on their cores. -/
def State.holders (s : State) : List Holder :=
  ((s.copies.filter fun c => !c.performed).map Copy.holder) ++ (s.ops.filter fun o => !o.done).map MatrixOp.holder

/-- The unfinished operations in the save records of teams that a restore brings back (R338): they own their lines still, so that a store which
their banks accepted behind them lands after their data (R286). No other operation waits for them: a copy of a saved team is performed before
the team is restored (R337); the model's reading (log 61). -/
def State.savedHolders (s : State) : List Holder :=
  s.ctxs.flatMap fun c => (c.snapshot.ops.filter fun o =>
    !o.done && s.claimSaved (some o.warp.teamId) && !(s.ops.any fun x => x.id == o.id) &&
      !((s.grid? o.warp.ctx o.warp.grid).any fun g => g.status == 3)).map MatrixOp.holder

/-- An operation waits for an earlier one: for its data, for its reads on the same core, or for a slot or accumulator (R214, R286). -/
def Holder.awaits (y x : Holder) : Bool :=
  decide (x.id < y.id) &&
    ((x.lines.any fun l => y.reads.contains l || y.lines.contains l) ||
      (x.core == y.core && ((x.reads.any y.lines.contains) || (x.acc.isSome && x.acc == y.acc) || x.slots.any y.slots.contains)))

/-- The operations that are not performed before one of these accesses to the line is (R288): later ones of its warp on the line, and those that
wait for such an operation. -/
def dependents (hs : List Holder) (mine : List (WarpId × Nat)) (line : Nat) : List Nat :=
  (sortBy (fun (a b : Holder) => decide (a.id < b.id)) hs).foldl (fun dep y =>
    let own := mine.any fun m => m.1 == y.warp && decide (m.2 < y.id) && (y.lines.contains line || y.reads.contains line)
    if own || hs.any fun x => dep.contains x.id && y.awaits x then y.id :: dep else dep) []

/-- The line is owned by an unfinished engine operation (R286), other than one that itself waits for the access, or for an access that is
performed after it, `mine` (R288); of an access that its bank has accepted, by one that owned the line then, with a number below `before`.
R286 and R288 would let the access and such an operation wait for each other: the access goes first, the model's choice (log 61). -/
def State.ownedFor (s : State) (mine : List (WarpId × Nat)) (ha : Nat) (before : Option Nat := none) : Bool :=
  let hs := s.holders ++ s.savedHolders
  match hs.filter fun y => y.lines.contains (lineOf ha) && before.all fun n => decide (y.id < n) with
  | [] => false
  | own => let dep := dependents hs mine (lineOf ha); own.any fun y => !dep.contains y.id

/-- An access waits for its home: no link can carry it (R364), or it waits for a directory recall (R286). -/
def State.homeBlocked (s : State) (mine : List (WarpId × Nat)) (ha : Nat) (before : Option Nat := none) : Bool :=
  !s.reachable ha || s.ownedFor mine ha before

/-- A bank has accepted a store or an atomic to the sector that is not performed yet (R286). -/
def State.bankAwaits (s : State) (ha : Nat) : Bool :=
  (s.stores.any fun p => (p.taken.any fun t => t.1 == sectorOf ha) && p.lanes.any fun l => sectorOf l.1.ha == sectorOf ha) ||
    s.warps.any fun w => w.loads.any fun x => x.accepted.isSome && x.data.isNone && x.lanes.any fun r => sectorOf r.ha == sectorOf ha

/-- Pieces overlap. -/
def overlap (a b : LaneReq) : Bool := decide (a.ha < b.ha + b.len) && decide (b.ha < a.ha + a.len)

/-- The pending loads and atomics of the warp that touch the pieces and satisfy a condition (R199). -/
def Warp.pendingLoads (w : Warp) (p : Load → Bool) (l : List LaneReq) : List Load :=
  w.loads.filter fun x => p x && x.data.isNone && x.lanes.any fun a => l.any fun b => overlap a b

/-- A store or atomic waits for the pending loads and atomics of its warp on its bytes (R199). -/
def Warp.pendingOn (w : Warp) (l : List LaneReq) : Option Hold :=
  match w.pendingLoads (fun _ => true) l with
  | [] => none
  | xs => some (.loadResult (xs.any (·.missed)))

/-- The access for which an engine operation of the same warp waits (R288): an atomic, or a load that an atomic after it waits for (R199). -/
def Warp.atomicOrder (w : Warp) (x : Load) : List (WarpId × Nat) :=
  let before (y : Load) : Bool := decide (x.id < y.id) && y.kind.isAtomic && y.lanes.any fun a => x.lanes.any fun b => overlap a b
  if x.kind.isAtomic || w.loads.any before then [(w.id, x.id)] else []

/-! ### Performing stores -/

/-- The bytes that an instruction stores to one sector, later lanes over earlier ones (R198); none where it stores nothing. -/
def sectorImage (sec : Nat) (l : List (LaneReq × List Byte)) : List (Option Byte) :=
  l.foldl (fun img p =>
    if sectorOf p.1.ha != sec then img
    else (p.2.zip (List.range p.2.length)).foldl (fun img q => img.set (p.1.ha - sec + q.2) (some q.1)) img) (List.replicate 64 none)

/-- The writes of a store instruction: one for a sector that it covers wholly, otherwise one for each piece in lane order. -/
def storeWrites (l : List (LaneReq × List Byte)) : List (Nat × List Byte) :=
  (sectorsOf (l.map (·.1))).flatMap fun sec =>
    let img := sectorImage sec l
    if img.all (·.isSome) then [(sec, img.map fun b => b.getD 0)]
    else (l.filter fun p => sectorOf p.1.ha == sec).map fun p => (p.1.ha, p.2)

/-- Stop a warp for faults met where a request was performed (R197); the warp whose turn it is keeps it. -/
def State.stopPerformed (s : State) (id : WarpId) (pc : Addr) (bad : List (LaneAddr × Code)) (write : Bool) : State :=
  match worst performOrder bad, s.warp? id with
  | none, _ | _, none => s
  | some (c, lanes), some w =>
    -- faults of one cycle each write their record, though the first has stopped the whole grid (R267)
    let together := !s.faulted.contains id && !(s.faultedWith id).isEmpty && !((s.grid? id.ctx id.grid).any (·.killed))
    if w.stopped && !together then s
    else
      let f : FaultInfo := { code := c, mask := maskOf (lanes.map (·.1)), va := ((lanes.head?).map (·.2)).getD 0, write := write }
      ((s.focus id).stopWarpAt f pc).focus s.w.id

/-- Perform the lanes of a pending store in some sectors at their home (R197, R280): lanes that meet no fault are written, and the bytes of the
sectors that the core's L1 holds are updated (R74). The store is over with its last lane. One of which some lanes are refused forces no checkpoint, though the others stand: R209 asks for one, R335 says that an
action that faults performs nothing; the model's choice (log 45). -/
def State.storePart (s : State) (p : PendStore) (secs : List Nat) : State :=
  let ctx := p.warp.ctx
  let code (l : LaneReq × List Byte) : Code := s.storeCode ctx l.1.ha
  let bad := p.lanes.filterMap fun l => if code l == 0 then none else some ((l.1.lane, l.1.va), code l)
  let ok := p.lanes.filter fun l => code l == 0
  let rest := ok.filter fun l => !secs.contains (sectorOf l.1.ha)
  let emptied := rest.isEmpty
  let s := { s with stores := if emptied then s.stores.filter fun x => x.id != p.id
                              else mapWhere (fun x => x.id == p.id) (fun x => { x with lanes := rest }) s.stores }
  let s := (storeWrites (ok.filter fun l => secs.contains (sectorOf l.1.ha))).foldl (fun s q =>
    let fresh := (s.l2Line ctx q.1).isNone
    let s := s.homeStore (some p.core) ctx q.1 q.2
    if p.evictFirst && fresh then s.setLine ctx q.1 fun l => { l with evictFirst := true } else s) s
  let s := (ok.filter fun l => secs.contains (sectorOf l.1.ha)).foldl (fun s l => s.l1Update p.core ctx l.1.ha l.2) s
  if bad.isEmpty then (if emptied && p.irrevocable then s.irrevocable p.warp else s) else s.stopPerformed p.warp p.pc bad true

/-- Perform a pending store whole. -/
def State.storePerform (s : State) (p : PendStore) : State := s.storePart p (sectorsOf (p.lanes.map (·.1)))

/-- A pending store waits at the home of a sector (R286, R364). Loads and atomics of its core behind it wait with it (R281), so that an operation
which waits for one of them waits for the store too. -/
def State.storeHeld (s : State) (p : PendStore) (sec : Nat) : Bool :=
  let here := p.lanes.filter fun l => sectorOf l.1.ha == sec
  let behind := (s.warps.filter fun w => w.core == p.core && w.id.ctx == p.warp.ctx).flatMap fun w =>
    (w.loads.filter fun x => decide (p.id < x.id) && x.data.isNone && x.lanes.any fun r => sectorOf r.ha == sec).flatMap w.atomicOrder
  let before := (p.taken.find? fun t => t.1 == sec).map (·.2)
  here.any fun l => s.homeBlocked ((p.warp, p.id) :: behind) l.1.ha before

/-- A store of the core to the sector, up to one with a number, waits at its home: the later ones wait behind it (R281). -/
def State.storeStuck (s : State) (core : CoreId) (ctx limit sec : Nat) : Bool :=
  s.stores.any fun q => q.core == core && q.warp.ctx == ctx && decide (q.id ≤ limit) && (q.lanes.any fun l => sectorOf l.1.ha == sec) && s.storeHeld q sec

/-- The sectors of a pending store among some, at whose home it can be performed now. -/
def State.openSectors (s : State) (p : PendStore) (secs : List Nat) : List Nat :=
  (sectorsOf ((p.lanes.map (·.1)).filter fun r => secs.contains (sectorOf r.ha))).filter fun sec => !s.storeStuck p.core p.warp.ctx p.id sec

/-- A store that the core issued before access `n`, to the access's bytes, waits at its home: the core holds the access until those bytes are
there (R281). -/
def State.storeBefore (s : State) (core : CoreId) (ctx n : Nat) (l : List LaneReq) : Bool :=
  s.stores.any fun p => p.core == core && p.warp.ctx == ctx && decide (p.id < n) &&
    p.lanes.any fun a => (l.any fun b => overlap a.1 b) && s.storeStuck core ctx p.id (sectorOf a.1.ha)

/-- The pending stores of a core to some sectors are performed there in the order in which the core issued them (R281), up to the store
`limit`; lanes whose lines an engine owns wait for the recall (R286), unless an engine waits for them (`force`, R288). -/
def State.landSectors (s : State) (core : CoreId) (ctx : Nat) (limit : Option Nat) (secs : List Nat) (force : Bool := false) : State :=
  (s.stores.filter fun p => p.core == core && p.warp.ctx == ctx && limit.all fun n => decide (p.id ≤ n)).foldl (fun s p =>
    match s.stores.find? fun x => x.id == p.id with
    | none => s
    | some q =>
      match (if force then (sectorsOf (q.lanes.map (·.1))).filter secs.contains else s.openSectors q secs) with
      | [] => s
      | now => s.storePart q now) s

/-- The bank of some sectors accepts the core's stores to them up to store `limit`, in the order in which the core issued them (R281, R286). -/
def State.takeSectors (s : State) (core : CoreId) (ctx limit : Nat) (secs : List Nat) : State :=
  let fresh (p : PendStore) : List Nat := (sectorsOf (p.lanes.map (·.1))).filter fun x => secs.contains x && !(p.taken.any fun t => t.1 == x)
  let take (p : PendStore) : PendStore := { p with taken := p.taken ++ (fresh p).map fun x => (x, s.nextId) }
  { s with stores := mapWhere (fun p => p.core == core && p.warp.ctx == ctx && decide (p.id ≤ limit)) take s.stores }

/-! ### Performing loads and atomics -/

/-- Read one piece for a load of its kind (R74): from L1 on a hit, else from the home; one that does not bypass takes its whole sector into L1,
so that it needs all bytes of it (R75, log 60); an `.ef` load's line is the first candidate for eviction. -/
def State.readPiece (s : State) (core : CoreId) (ctx : Nat) (kind : LoadKind) (r : LaneReq) : State × Code × List Byte :=
  let bypass := kind == .bypass
  match (if bypass then none else s.l1Sector core ctx r.ha) with
  | some x => (s, 0, x.read r.ha r.len)
  | none =>
    let need := if bypass then (r.ha, r.len) else (sectorOf r.ha, 64)
    let c := s.sectorCode ctx need.1 need.2
    let s := s.sectorFill ctx need.1 need.2
    if c != 0 then (s, c, [])
    else ((if bypass then s else s.l1Fill core ctx r.ha false (kind == .evictFirst)), 0, s.mem.readBytes r.ha r.len)

/-- Perform the lanes of an atomic at their home in ascending thread order (R198, R208): data, faults, flags. One request serves every lane of
a sector (R194), so that they meet the code with which the sector stood before. -/
def State.atomicPerform (s : State) (core : CoreId) (ctx : Nat) (code : Nat) (isUnsigned isFloat : Bool) (size : Nat)
    (lanes : List (LaneReq × BitVec 64 × BitVec 64)) : State × List (Nat × BitVec 128) × List (LaneAddr × Code) × Word :=
  lanes.foldl (fun acc p =>
    let (s', data, bad, flags) := acc
    let (r, opnd, cmp) := p
    let c := if isDram r.ha then s.sectorCode ctx r.ha size else s.farCode (sectorOf r.ha) true
    let s := s'
    if c != 0 then (s.sectorFill ctx r.ha size, data, bad ++ [((r.lane, r.va), c)], flags)
    else
      let s := s.sectorFill ctx r.ha size
      let old := BitVec.ofNat 64 (s.mem.readNat r.ha size)
      let res := atomicResult code isUnsigned isFloat size old opnd cmp
      let s := if atomicWrites code old cmp then s.homeStore (some core) ctx r.ha (leBytes size res.1.toNat) else s
      let s := s.l1Drop core ctx r.ha
      (s, data ++ [(r.lane, old.setWidth 128)], bad, flags ||| res.2)) (s, [], [], 0)

/-- Write the returned data of a load into its destination registers (R192). -/
def Warp.writeLoad (w : Warp) (x : Load) (data : List (Nat × BitVec 128)) : Warp :=
  let m := maskOf (data.map (·.1))
  (List.range (dataRegs x.size)).foldl (fun w i =>
    w.writeBlock (Fin.ofNat 256 (x.dest + i)) m
      (Vector.ofFn fun t => (((data.find? fun d => d.1 == t.val).map fun d => d.2.extractLsb' (32 * i) 32)).getD 0)) w

/-- The data of a load gathered from its pieces. -/
def gather (parts : List (LaneReq × List Byte)) (lanes : List Nat) : List (Nat × BitVec 128) :=
  lanes.eraseDups.map fun t =>
    (t, BitVec.ofNat 128 ((parts.filter fun p => p.1.lane == t).foldl (fun v p => v + leNat p.2 * 2 ^ (8 * p.1.off)) 0))

/-- A load through L1 (R74): default or evict-first. -/
def LoadKind.isCached : LoadKind → Bool
  | .cached | .evictFirst => true
  | _ => false

/-- A load of the warp that must return before this one (R199): an earlier one on the same bytes, both cached, both bypassing, or either an
atomic. -/
def Warp.blockedLoad (w : Warp) (x : Load) : Bool :=
  (w.loads.takeWhile fun y => y.id != x.id).any fun y =>
    y.data.isNone && (y.kind.isAtomic || x.kind.isAtomic || y.kind.isCached == x.kind.isCached) &&
      y.lanes.any fun a => x.lanes.any fun b => overlap a b

/-- The load leaves the warp's outstanding loads, its data written and its flags merged. -/
def State.loadDone (s : State) (id : WarpId) (x : Load) (data : List (Nat × BitVec 128)) (flags : Word) : State :=
  s.setWarp id fun w => { (w.writeLoad x data).setFlags flags with loads := w.loads.filter fun y => y.id != x.id }

/-- The load waits for an earlier access of its warp (R199), for an earlier store of its core to its bytes (R281), or at its home (R286, R364): a
cached one there only where its sector is not in L1. -/
def State.loadBlocked (s : State) (w : Warp) (x : Load) : Bool :=
  w.blockedLoad x || s.storeBefore w.core w.id.ctx x.id x.lanes || x.lanes.any fun r =>
    !(x.kind.isCached && (s.l1Sector w.core w.id.ctx r.ha).isSome) && s.homeBlocked (w.atomicOrder x) r.ha x.accepted

/-- The home holds what the core has stored to the sectors (R199, R281): its pending stores are performed, and for an access that passes L1
by, dirty private bytes are written back. -/
def State.drain (s : State) (core : CoreId) (ctx : Nat) (kind : LoadKind) (secs : List Nat) : State :=
  let s := s.landSectors core ctx none secs
  if kind.isCached then s else s.l1WriteBackAll fun x => x.core == core && x.ctx == ctx && secs.contains x.ha

/-- The words that a `ret` waits for have arrived; once no fragment stands at the `ret`, they are forgotten (R181). -/
def State.wordsArrive (s : State) (id : WarpId) (x : Load) : State :=
  s.setWarp id fun w =>
    if x.data.isNone then { w with loads := mapWhere (fun y => y.id == x.id) (fun y => { y with data := some [] }) w.loads }
    else if w.slots.toList.any fun k => k.st == .live && k.frag.pc == x.pc then w
    else { w with loads := w.loads.filter fun y => y.id != x.id }

/-- Perform an atomic of a warp at its home, after the core's pending stores to its sectors: data, faults, flags. -/
def State.atomicAt (s : State) (w : Warp) (x : Load) : State × List (Nat × BitVec 128) × List (LaneAddr × Code) × Word :=
  match x.kind with
  | .atomic code u f _ opnds =>
    (s.drain w.core w.id.ctx x.kind (sectorsOf x.lanes)).atomicPerform w.core w.id.ctx code u f x.size (x.lanes.zip opnds)
  | _ => (s, [], [], 0)

/-- The atomic is an irrevocable action (R209). -/
def LoadKind.irrevocable : LoadKind → Bool
  | .atomic _ _ _ irr _ => irr
  | _ => false

/-- What follows an atomic's performance: `s` is the state in which its data is kept or written. What units have written to its bytes since its
bank accepted it comes after it. -/
def State.atomicAfter (s : State) (w : Warp) (x : Load) (bad : List (LaneAddr × Code)) : State :=
  let s := x.later.reverse.foldl (fun s e => s.homeStore none w.id.ctx e.1 [e.2]) s
  if bad.isEmpty then (if x.kind.irrevocable then s.irrevocable w.id else s) else s.stopPerformed w.id x.pc bad true

/-- The data of load `n` of a warp returns (R194, R197, R281): pending stores of the core to its sectors are performed first; a load of
a line that an engine owns waits for the recall. The state is unchanged while the load cannot return. -/
def State.loadReturn (s : State) (id : WarpId) (n : Nat) : State :=
  match s.warp? id with
  | none => s
  | some w =>
    match w.loads.find? fun x => x.id == n with
    | none => s
    | some x =>
      if x.kind == .returnWords then s.wordsArrive id x
      else
        match x.data with
        | some data => s.loadDone id x data x.flags
        | none =>
          if s.loadBlocked w x then s
          else if x.kind.isAtomic then
            let (s, data, bad, flags) := s.atomicAt w x
            (s.loadDone id x data flags).atomicAfter w x bad
          else
            let s := s.drain w.core id.ctx x.kind (sectorsOf x.lanes)
            -- one request serves every lane of a sector (R194)
            let bad : List (LaneAddr × Code) := x.lanes.filterMap fun r =>
              let c : Code := (s.readPiece w.core id.ctx x.kind r).2.1
              if c == 0 then none else some ((r.lane, r.va), c)
            let parts := x.lanes.map fun r => (r, (s.readPiece w.core id.ctx x.kind r).2.2)
            let s := x.lanes.foldl (fun t r => (t.readPiece w.core id.ctx x.kind r).1) s
            if bad.isEmpty then s.loadDone id x (gather parts (x.lanes.map (·.lane))) 0
            else
              let s := s.setWarp id fun w => { w with loads := w.loads.filter fun y => y.id != x.id }
              s.stopPerformed id x.pc bad false

/-- An atomic that its bank has accepted is performed at its home as soon as no engine that owned its lines then owns them any longer (R286);
its data waits for its return. -/
def State.atomicLand (s : State) (id : WarpId) (n : Nat) : State :=
  match s.warp? id with
  | none => s
  | some w =>
    match w.loads.find? fun x => x.id == n with
    | none => s
    | some x =>
      if !x.kind.isAtomic || x.accepted.isNone || x.data.isSome || s.loadBlocked w x then s
      else
        let (s, data, bad, flags) := s.atomicAt w x
        if bad.isEmpty then
          let keep (y : Load) : Load := { y with data := some data, flags := flags }
          (s.setWarp id fun w => { w with loads := mapWhere (fun y => y.id == n) keep w.loads }).atomicAfter w x bad
        else (s.loadDone id x data flags).atomicAfter w x bad

/-- A store in one sector, or an atomic, that its bank has accepted and that is not performed. -/
inductive Waiting where
  | store (id sec : Nat)
  | atomic (w : WarpId) (n : Nat)
  deriving DecidableEq, Repr

/-- Those that wait, in the order in which their banks accepted them. -/
def State.waitingAll (s : State) : List (Nat × Waiting) :=
  sortBy (fun a b => decide (a.1 < b.1))
    ((s.stores.flatMap fun p => (p.taken.filter fun t => p.lanes.any fun l => sectorOf l.1.ha == t.1).map fun t => (2 * t.2, Waiting.store p.id t.1)) ++
      s.warps.flatMap fun w => w.loads.filterMap fun x => if x.data.isSome then none else x.accepted.map fun n => (2 * n + 1, Waiting.atomic w.id x.id))

/-- One of them is performed, if no engine is in its way any longer. -/
def State.landOne (s : State) : Waiting → State
  | .store id sec =>
    match s.stores.find? fun p => p.id == id with
    | none => s
    | some p => match s.openSectors p [sec] with | [] => s | now => s.storePart p now
  | .atomic w n => s.atomicLand w n

/-- They are performed in the order of acceptance, again and again while some of them can be: what one of them ends, such as the operations of a
grid that it terminates, may have held back another. -/
def State.landAll : Nat → State → State
  | 0, s => s
  | fuel + 1, s =>
    match s.waitingAll with
    | [] => s
    | l =>
      let t := l.foldl (fun s x => s.landOne x.2) s
      if t.waitingAll.length == l.length then t else State.landAll fuel t

/-- The stores and atomics that their banks have accepted are performed as far as no engine that owned their lines then owns them any longer
(R286, R292). -/
def State.landAcked (s : State) : State := State.landAll (s.waitingAll.length + 1) s

/-- Store or atomic `n` of a warp is acknowledged (R194): its bank, link, scratchpad or L1 has accepted it. It is performed at its home at once
(R280), after the core's earlier stores to its sectors, but where an engine owns the line: there it lands after the engine's data (R286,
R292). -/
def State.storeAck (s : State) (id : WarpId) (n : Nat) : State :=
  match s.stores.find? fun p => p.warp == id && p.id == n with
  | some p =>
    if p.lanes.isEmpty then s.storePerform p
    else if p.acked || p.lanes.any fun l => !s.reachable l.1.ha then s
    else
      let secs := sectorsOf (p.lanes.map fun l => l.1)
      let s := s.takeSectors p.core id.ctx n secs
      let accepted := mapWhere (fun x => x.id == n) (fun x => { x with acked := true }) s.stores
      ({ s with stores := accepted, nextId := s.nextId + 1 } : State).landSectors p.core id.ctx (some n) secs
  | none =>
    match s.warp? id with
    | none => s
    | some w =>
      match w.loads.find? fun x => x.id == n && x.kind.isAtomic && x.accepted.isNone with
      | none => s
      | some x =>
        if x.data.isNone && ((w.blockedLoad x) || x.lanes.any fun r => !s.reachable r.ha) then s
        else
          let s := s.takeSectors w.core id.ctx n (sectorsOf x.lanes)
          let accept (w : Warp) : Warp := { w with loads := mapWhere (fun y => y.id == n) (fun y => { y with accepted := some s.nextId }) w.loads }
          ({ s with nextId := s.nextId + 1 }.setWarp id accept).atomicLand id n

/-! ### Issuing -/

/-- A load enters the warp's outstanding loads and the fragment continues. -/
def State.issueLoad (s : State) (x : Load) : State :=
  ({ s with nextId := s.nextId + 1, w := { s.w with loads := s.w.loads ++ [{ x with id := s.nextId }] } } : State).advance

/-- A store enters the core's queue, and the fragment continues; its bytes reach the L1 sectors present when they reach their home (R74, R281). -/
def State.issueStore (s : State) (lanes : List (LaneReq × List Byte)) (irrevocable : Bool) (reqs : Nat) (evictFirst : Bool := false) : State :=
  let w := s.w
  let p : PendStore := ⟨s.nextId, w.id, w.core, s.pc, lanes, false, irrevocable, evictFirst, reqs, [], s.clock⟩
  let s := { s with nextId := s.nextId + 1, stores := s.stores ++ [p], w := { w with awaitCheckpoint := w.awaitCheckpoint || irrevocable } }
  s.advance

/-- The destination register of the block that a vector field names. -/
def Warp.blockReg (w : Warp) (d : Reg) : Nat := w.wbase + d.toNat

/-- The bytes of lane t that a store takes from its data registers (R192). -/
def Warp.storeBytes (w : Warp) (d : Reg) (size t : Nat) : List Byte :=
  leBytes size ((List.range (dataRegs size)).foldl (fun v i => v + w.vnat (d.toNat + i) t * 2 ^ (32 * i)) 0)

/-- The checks of R196 that global and lexical accesses share after their own limits: the lanes with their home addresses, or the
state after the fault. -/
def State.globalLanes (s : State) (i : Instr) (a : Access) (size : Nat) (report : List LaneAddr) (va : Nat → Nat)
    (limits : List (Code × (LaneAddr → Bool))) : Except State (List LaneReq) :=
  let checks : List (Code × (LaneAddr → Bool)) :=
    (0x06, fun _ => s.leased i) :: (0x07, fun l => l.2 % size != 0) :: limits
  match firstBad checks report with
  | some (c, lanes) => .error (s.raiseLanes c lanes a.writes)
  | none =>
    match s.translateLanes a (report.map fun l => (l.1, va l.2)) with
    | .error (c, lanes) => .error ((s.raiseLanes c lanes a.writes).walkMet s.w.id.ctx c (((lanes.head?).map (·.2)).getD 0))
    | .ok lanes => .ok (lanes.map fun p => ⟨p.1.1, p.1.2, p.2, 0, size⟩)

/-- Stores and atomics to host or peer memory are irrevocable (R209). -/
def farPiece (r : LaneReq) : Bool := !isDram r.ha

/-- The L1 tag lookup of an access finds no valid sector for some lane (R22). -/
def State.misses (s : State) (lanes : List LaneReq) : Bool := lanes.any fun r => (s.l1Sector s.w.core s.w.id.ctx r.ha).isNone

/-- Issue a global or lexical load whose lanes passed the checks. R194 does not say whether an instruction that fails a check of R196 faults
while a counter that it would raise stands at its limit: here it faults, and only one that passed waits for the counters; the model's choice
(log 64). -/
def State.loadLanes (s : State) (size : Nat) (d : Reg) (kind : LoadKind) (lanes : List LaneReq) : State :=
  match s.countersFull true false with
  | some h => s.holdFor h
  | none =>
    let s := s.touchLanes (lanes.map fun r => (r.lane, r.va)) false
    s.issueLoad ⟨0, s.pc, size, s.w.blockReg d, lanes, kind, none, 0, (sectorsOf lanes).length, s.misses lanes, none, s.clock, []⟩

/-- Issue a global or lexical store whose lanes passed the checks. -/
def State.storeLanes (s : State) (size : Nat) (d : Reg) (evictFirst : Bool) (lanes : List LaneReq) : State :=
  match (s.countersFull false true).orElse fun _ => s.w.pendingOn lanes with
  | some h => s.holdFor h
  | none =>
    let data := lanes.map fun r => (r, s.w.storeBytes d size r.lane)
    let s := s.touchLanes (lanes.map fun r => (r.lane, r.va)) true
    s.issueStore data (lanes.any farPiece) (sectorsOf lanes).length evictFirst

/-- Issue a global or lexical atomic whose lanes passed the checks. -/
def State.atomicLanes (s : State) (size : Nat) (d : Reg) (code : Nat) (isUnsigned isFloat irrevocable : Bool)
    (opnd cmp : Nat → BitVec 64) (lanes : List LaneReq) : State :=
  match (s.countersFull true true).orElse fun _ => s.w.pendingOn lanes with
  | some h => s.holdFor h
  | none =>
    let irr := irrevocable || lanes.any farPiece
    let s := s.touchLanes (lanes.map fun r => (r.lane, r.va)) true
    let s := s.setW fun w => { w with awaitCheckpoint := w.awaitCheckpoint || irr }
    s.issueLoad ⟨0, s.pc, size, s.w.blockReg d, lanes,
      .atomic code isUnsigned isFloat irr (lanes.map fun r => (opnd r.lane, cmp r.lane)), none, 0, (sectorsOf lanes).length, s.misses lanes, none, s.clock, []⟩

/-! ### The spaces -/

/-- The limit of global addresses (R64). -/
def globalLimit : List (Code × (LaneAddr → Bool)) := [((0x09 : Code), fun l => decide (2 ^ 57 ≤ l.2))]

/-- The checks of a lexical access (R88, R196): the level, then the bound of the frame's class. -/
def State.lexicalLimits (s : State) (level size : Nat) : List (Code × (LaneAddr → Bool)) :=
  let bad := decide (s.w.level < level) || decide (9 < level)
  let cls := ((s.w.display[level]?).map (·.cls)).getD 0
  [((0x0E : Code), fun _ => bad), (0x0D, fun l => decide (cls < l.2 + size + 64))]

/-- The virtual address of a lexical offset (R88). -/
def State.lexicalVa (s : State) (level o : Nat) : Nat := (((s.w.display[level]?).map (·.base.toNat)).getD 0 + 64 + o) % 2 ^ 64

/-- A global load (R200). -/
def State.globalLoad (s : State) (i : Instr) (size : Nat) (c : BitVec 2) (k : BitVec 1) (d a b : Reg) : State :=
  match s.globalLanes i .load size (s.globalAddrs a (s.w.memOffset k b size)) id globalLimit with
  | .error s => s
  | .ok lanes => s.loadLanes size d (match c with | 1 => .bypass | 2 => .evictFirst | _ => .cached) lanes

/-- A global store (R200); with mod 2, evict-first (R113). -/
def State.globalStore (s : State) (i : Instr) (size : Nat) (c : BitVec 2) (k : BitVec 1) (d a b : Reg) : State :=
  match s.globalLanes i .store size (s.globalAddrs a (s.w.memOffset k b size)) id globalLimit with
  | .error s => s
  | .ok lanes => s.storeLanes size d (c == 2) lanes

/-- A lexical load (R203). -/
def State.lexicalLoad (s : State) (i : Instr) (z : BitVec 2) (k : BitVec 1) (d a : Reg) (l : BitVec 4) (im : BitVec 3) : State :=
  let size := sizeOf z
  match s.globalLanes i .load size (s.lexicalAddrs k a im size) (s.lexicalVa l.toNat) (s.lexicalLimits l.toNat size) with
  | .error s => s
  | .ok lanes => s.loadLanes size d .cached lanes

/-- A lexical store (R203). -/
def State.lexicalStore (s : State) (i : Instr) (z : BitVec 2) (k : BitVec 1) (d a : Reg) (l : BitVec 4) (im : BitVec 3) : State :=
  let size := sizeOf z
  match s.globalLanes i .store size (s.lexicalAddrs k a im size) (s.lexicalVa l.toNat) (s.lexicalLimits l.toNat size) with
  | .error s => s
  | .ok lanes => s.storeLanes size d false lanes

/-- Lane t of a vector field, or of a pair, as 64 bits. -/
def Warp.lane64 (w : Warp) (wide : Bool) (n t : Nat) : BitVec 64 :=
  if wide then BitVec.ofNat 64 (w.vnat (n + 1) t * 2 ^ 32 + w.vnat n t) else BitVec.ofNat 64 (w.vnat n t)

/-- A global atomic (R204, R205). -/
def State.globalAtomic (s : State) (i : Instr) (wide isUnsigned isFloat irrevocable : Bool) (c : BitVec 3) (d a b : Reg) : State :=
  let size := if wide then 8 else 4
  match s.globalLanes i .atomic size (s.globalAddrs a 0) id globalLimit with
  | .error s => s
  | .ok lanes =>
    s.atomicLanes size d c.toNat isUnsigned isFloat irrevocable (s.w.lane64 wide b.toNat) (s.w.lane64 wide d.toNat) lanes

/-- A lexical atomic (R206): operands in d and the registers after it. -/
def State.lexicalAtomic (s : State) (i : Instr) (wide : Bool) (c : BitVec 3) (d a : Reg) (l : BitVec 4) (im : BitVec 3) : State :=
  let size := if wide then 8 else 4
  let n := if c = 7 then d.toNat + (if wide then 2 else 1) else d.toNat
  match s.globalLanes i .atomic size (s.lexicalAddrs 0 a im size) (s.lexicalVa l.toNat) (s.lexicalLimits l.toNat size) with
  | .error s => s
  | .ok lanes => s.atomicLanes size d c.toNat false false false (s.w.lane64 wide n) (s.w.lane64 wide d.toNat) lanes

/-! ### Scratchpad (R201): performed when the instruction issues -/

/-- The checks of a scratchpad access (R196): lease, alignment, bound. -/
def State.spadCheck (s : State) (i : Instr) (size : Nat) (lanes : List LaneAddr) : Option (Code × List LaneAddr) :=
  let limit := ((s.team.map (·.spadsz))).getD 0
  firstBad [(0x06, fun _ => s.leased i), (0x07, fun l => l.2 % size != 0), (0x0B, fun l => decide (limit < l.2 + size))] lanes

/-- The destination range of an incomplete copy overlaps the access (R201, R287). -/
def State.tracked (s : State) (size : Nat) (lanes : List LaneAddr) : Bool :=
  s.copies.any fun c => c.warp.teamId == s.w.id.teamId &&
    (match c.dst.spadRange with
      | some (off, len) => lanes.any fun l => decide (off < l.2 + size) && decide (l.2 < off + len)
      | none => false)

/-- Remember the pages of the instruction that is to be replayed (R84). -/
def State.setReplay (s : State) (pages : List Nat) : State := s.setW fun w => { w with replay := w.replay.set w.cur pages }

/-- The requests that a scratchpad access takes (R194): its distinct sectors. -/
def spadReqs (size : Nat) (lanes : List LaneAddr) : Nat := ((lanes.flatMap fun l => spadSectors l.2 size).eraseDups).length

/-- A scratchpad access that passed its checks: it waits for its pages (R84, R342), then for the range tracker, else `go` performs it on the
team. -/
def State.spadAccess (s : State) (i : Instr) (size : Nat) (write load store : Bool) (lanes : List LaneAddr) (go : State → Team → State) : State :=
  match s.spadCheck i size lanes with
  | some (c, bad) => s.raiseLanes c bad write
  | none =>
    match s.countersFull load store, s.team with
    | some h, _ => s.holdFor h
    | none, none => s
    | none, some t =>
      let pages := lanes.flatMap fun l => pagesOf l.2 size
      match t.missing pages with
      | [] =>
        if s.tracked size lanes then s.holdFor .rangeTracker
        else go ({ s with nextId := s.nextId + 1 }.setReplay []) (t.spadUse pages s.nextId)
      | missing => (s.setReplay pages).holdFor (.pageIn missing)

/-- Lanes of a scratchpad access with the code that each meets. -/
def Team.spadBad (t : Team) (size : Nat) (lanes : List LaneAddr) : List (LaneAddr × Code) :=
  lanes.filterMap fun l => let c := t.spadCode l.2 size; if c == 0 then none else some (l, c)

/-- Replace a team. -/
def State.putTeam (s : State) (t : Team) : State := s.setTeam t.id fun _ => t

/-- A scratchpad load (R201). -/
def State.spadLoad (s : State) (i : Instr) (z : BitVec 2) (k : BitVec 1) (d a b : Reg) : State :=
  let size := sizeOf z
  let lanes := s.offsetAddrs a (s.w.memOffset k b size)
  s.spadAccess i size false true false lanes fun s t =>
    let bad := t.spadBad size lanes
    if bad.isEmpty then
      let data := lanes.map fun l => (l.1, BitVec.ofNat 128 (leNat (t.spadRead l.2 size)))
      (s.putTeam t).issueLoad ⟨0, s.pc, size, s.w.blockReg d, [], .cached, some data, 0, spadReqs size lanes, false, none, s.clock, []⟩
    else ((s.putTeam (lanes.foldl (fun t l => t.spadMet l.2 size) t)).stopPerformed s.w.id s.pc bad false)

/-- The lanes' writes on a team's scratchpad, with the marks of sectors that the instruction covers wholly cleared first (R84). -/
def Team.spadStore (t : Team) (writes : List (Nat × List Byte)) : Team :=
  let covered := (writes.map fun w => w.1 / 64).eraseDups.filter fun sec =>
    (List.range 64).all fun o => writes.any fun w => decide (w.1 ≤ 64 * sec + o) && decide (64 * sec + o < w.1 + w.2.length)
  let t := covered.foldl (fun t sec => t.spadClear (sec / 32) (sec % 32)) t
  writes.foldl (fun t w => t.spadWritePage w.1 w.2) t

/-- A scratchpad store (R201): it is written when it issues and stays outstanding until it is acknowledged. -/
def State.spadStore (s : State) (i : Instr) (z : BitVec 2) (k : BitVec 1) (d a b : Reg) : State :=
  let size := sizeOf z
  let lanes := s.offsetAddrs a (s.w.memOffset k b size)
  s.spadAccess i size true false true lanes fun s t =>
    let covered (l : LaneAddr) : Bool := (List.range 64).all fun o =>
      lanes.any fun m => decide (m.2 ≤ l.2 / 64 * 64 + o) && decide (l.2 / 64 * 64 + o < m.2 + size)
    let bad := (t.spadBad size lanes).filter fun p => !covered p.1
    let good := lanes.filter fun l => !bad.any fun p => p.1 == l
    let t := t.spadStore (good.map fun l => (l.2, s.w.storeBytes d size l.1))
    if bad.isEmpty then (s.putTeam t).issueStore [] false (spadReqs size lanes)
    else (s.putTeam (lanes.foldl (fun t l => t.spadMet l.2 size) t)).stopPerformed s.w.id s.pc bad true

/-- A scratchpad atomic (R204, R205), in ascending thread order. -/
def State.spadAtomic (s : State) (i : Instr) (isUnsigned isFloat : Bool) (c : BitVec 3) (d a b : Reg) : State :=
  let lanes := s.offsetAddrs a 0
  s.spadAccess i 4 true true true lanes fun s t =>
    let bad := t.spadBad 4 lanes
    let good := lanes.filter fun l => !bad.any fun p => p.1 == l
    let r := good.foldl (fun (acc : Team × List (Nat × BitVec 128) × Word) l =>
      let old := BitVec.ofNat 64 (leNat (acc.1.spadRead l.2 4))
      let cmp := s.w.lane64 false d.toNat l.1
      let res := atomicResult c.toNat isUnsigned isFloat 4 old (s.w.lane64 false b.toNat l.1) cmp
      let t := if atomicWrites c.toNat old cmp then acc.1.spadWritePage l.2 (leBytes 4 res.1.toNat) else acc.1
      (t, acc.2.1 ++ [(l.1, old.setWidth 128)], acc.2.2 ||| res.2)) (t, [], 0)
    let load : Load := ⟨0, s.pc, 4, s.w.blockReg d, [], .atomic c.toNat isUnsigned isFloat false [], some r.2.1, r.2.2, spadReqs 4 lanes, false, none, s.clock, []⟩
    if bad.isEmpty then (s.putTeam r.1).issueLoad load
    else
      let s := s.putTeam (lanes.foldl (fun t l => t.spadMet l.2 4) r.1)
      let s := { s with w := { (s.w.writeLoad load r.2.1).setFlags r.2.2 with loads := s.w.loads } }
      s.stopPerformed s.w.id s.pc bad true

/-! ### Private memory (R202): performed when the instruction issues -/

/-- The address of byte offset o of thread t among the thread words (R87). -/
def Warp.privVa (w : Warp) (t o : Nat) : Nat := w.privBase + (o / 4 * 32 + t) * 4 + o % 4

/-- The pieces of a private access: one for each word. -/
def Warp.privPieces (w : Warp) (size : Nat) (lanes : List LaneAddr) : List LaneReq :=
  lanes.flatMap fun l => (List.range (size / 4)).map fun i => ⟨l.1, w.privVa l.1 (l.2 + 4 * i), 0, 4 * i, 4⟩

/-- The checks of a private access (R196) up to translation. -/
def State.privCheck (s : State) (i : Instr) (a : Access) (size : Nat) (lanes : List LaneAddr) : Option (Code × List LaneAddr) :=
  match firstBad [(0x06, fun _ => s.leased i), (0x07, fun l => l.2 % size != 0), (0x0C, fun l => decide (s.w.privsz < l.2 + size))] lanes with
  | some f => some f
  | none =>
    match s.translateLanes a ((s.w.privPieces size lanes).map fun p => (p.lane, p.va)) with
    | .error f => some f
    | .ok _ => none

/-- The pieces of an access through the private path, with their home addresses where they translate. -/
def State.privHomes (s : State) (w : Warp) (a : Access) (l : List LaneReq) : List LaneReq :=
  l.filterMap fun r => match s.translate (.core w.core) w.id.ctx a w.super r.va with | .ok ha => some { r with ha := ha } | .error _ => none

/-- When a request that no link can carry ends (R364): 10 ms (8,500,000 cycles) after it began, or after the links last changed. -/
def State.linkEnd (s : State) (since : Nat) : Nat := max since s.cutAt + 8500000

/-- The fetch or the access of the warp's slot has waited for a link for 10 ms (R364): it is performed, and meets 0x16. -/
def State.linkLost (s : State) (w : Warp) (slot : Fin 2) : Bool := w.linkWait[slot].any fun t => decide (s.linkEnd t ≤ s.clock)

/-- A warp as the events see it that move its fragments: what waits for a link has waited since the links last changed (log 37). -/
def Warp.asEvent (w : Warp) : Warp := { w with linkWait := Vector.replicate 2 (some 0) }

/-- An access through the private path waits (R199, R281, R286): for pending loads of the warp on its bytes that it is ordered after, for a store of
its core to its bytes that waits at its home, for a line that an engine owns, or for a link (R364). -/
def State.privWaits (s : State) (w : Warp) (a : Access) (l : List LaneReq) : Option Hold :=
  let homes := s.privHomes w a l
  match w.pendingLoads (fun x => a.writes || x.kind != .bypass) homes with
  | [] =>
    if s.storeBefore w.core w.id.ctx s.nextId homes then some .ownedLine else
    let miss := homes.filter fun r => (s.l1Sector w.core w.id.ctx r.ha).isNone
    if miss.any fun r => s.ownedFor [] r.ha then some .ownedLine
    else if (miss.any fun r => !s.reachable r.ha) && !s.linkLost w w.cur then some .link
    else none
  | xs => some (.loadResult (xs.any (·.missed)))

/-- The core's pending stores to the bytes of an access through the private path are performed before it (R199, R281). -/
def State.privDrain (s : State) (w : Warp) (a : Access) (l : List LaneReq) : State :=
  s.landSectors w.core w.id.ctx none (sectorsOf (s.privHomes w a l))

/-- The lanes of an access through the private path that meet a fault at their home, each with the code with which its sector stood. -/
def State.privBad (s : State) (w : Warp) (l : List LaneReq) : List (LaneAddr × Code) :=
  l.filterMap fun r => let c := s.privReadCode w r.va; if c == 0 then none else some ((r.lane, r.va), c)

/-- Read the pieces of an access through the private path: what the reads leave behind, and the bytes as they stood before. -/
def State.privReads (s : State) (w : Warp) (l : List LaneReq) : State × List (LaneReq × List Byte) :=
  (l.foldl (fun t r => (t.privRead w r.va r.len).1) s, l.map fun r => (r, (s.privRead w r.va r.len).2.2))

/-- The lanes of a store through the private path whose sectors' writes meet a fault, each with its code (R197). -/
def State.privStoreBad (s : State) (w : Warp) (data : List (LaneReq × List Byte)) : List (LaneAddr × Code) :=
  let writes := storeWrites data
  data.filterMap fun p =>
    (writes.find? fun q => sectorOf q.1 == sectorOf p.1.va && s.privWriteCode w q.1 q.2.length != 0).map fun q =>
      ((p.1.lane, p.1.va), s.privWriteCode w q.1 q.2.length)

/-- A store through the private path that fills a failing sector poisons it (R94). -/
def State.privMet (s : State) (w : Warp) (bad : List (LaneAddr × Code)) : State :=
  (bad.filter fun b => b.2 == 0x16).foldl (fun s b =>
    match s.translate (.core w.core) w.id.ctx .store w.super b.1.2 with
    | .ok ha => s.sectorFill w.id.ctx ha 64
    | .error _ => s) s

/-- A private load (R202). -/
def State.privLoad (s : State) (i : Instr) (z : BitVec 2) (k : BitVec 1) (d a b : Reg) : State :=
  let size := sizeOf z
  let lanes := s.offsetAddrs a (s.w.memOffset k b size)
  let ps := s.w.privPieces size lanes
  match s.privCheck i .load size lanes with
  | some (c, bad) => (s.raiseLanes c bad false).walkMet s.w.id.ctx c (((bad.head?).map (·.2)).getD 0)
  | none =>
    match (s.countersFull true false).orElse fun _ => s.privWaits s.w .load ps with
    | some h => s.holdFor h
    | none =>
      let homes := s.privHomes s.w .load ps
      let missed := s.misses homes
      let s := s.privDrain s.w .load ps
      let bad := s.privBad s.w ps
      let r := s.privReads s.w ps
      if bad.isEmpty then
        r.1.issueLoad ⟨0, s.pc, size, s.w.blockReg d, [], .cached, some (gather r.2 (lanes.map (·.1))), 0, (sectorsOf homes).length, missed, none, s.clock, []⟩
      else r.1.stopPerformed s.w.id s.pc bad false

/-- A private store (R202): written to L1 when it issues; outstanding until it is acknowledged. -/
def State.privStore (s : State) (i : Instr) (z : BitVec 2) (k : BitVec 1) (d a b : Reg) : State :=
  let size := sizeOf z
  let lanes := s.offsetAddrs a (s.w.memOffset k b size)
  let ps := s.w.privPieces size lanes
  match s.privCheck i .store size lanes with
  | some (c, bad) => (s.raiseLanes c bad true).walkMet s.w.id.ctx c (((bad.head?).map (·.2)).getD 0)
  | none =>
    match (s.countersFull false true).orElse fun _ => s.privWaits s.w .store ps with
    | some h => s.holdFor h
    | none =>
      let w := s.w
      let homes := s.privHomes w .store ps
      let s := s.privDrain w .store ps
      let data := ps.map fun r => ({ r with ha := r.va }, ((s.w.storeBytes d size r.lane).drop r.off).take r.len)
      let bad := s.privStoreBad w data
      let s' := ((storeWrites data).filter fun q => s.privWriteCode w q.1 q.2.length == 0).foldl (fun s q => s.privWrite w q.1 q.2) s
      if !bad.isEmpty then (s'.privMet w bad).stopPerformed w.id s.pc bad true
      else s'.issueStore [] (homes.any farPiece) (sectorsOf homes).length

end Sys2Proof.Machine
end

