-- ==== Sys2Proof/Machine/MemoryInstr.lean ====
section
/-!
DEFINITION. The meanings of the memory instructions, class M (R191 to R211), each over the shared operations of Access.lean.
-/

namespace Sys2Proof.Machine

/-- `ldg.b8` (R200, R192). -/
def execLdgB8 (c : BitVec 2) (k : BitVec 1) (d a b : Reg) (s : State) : Result :=
  .next (s.checked (.ldgB8 c k d a b) fun s => s.globalLoad (.ldgB8 c k d a b) 1 c k d a b)

/-- `ldg.b16` (R200, R192). -/
def execLdgB16 (c : BitVec 2) (k : BitVec 1) (d a b : Reg) (s : State) : Result :=
  .next (s.checked (.ldgB16 c k d a b) fun s => s.globalLoad (.ldgB16 c k d a b) 2 c k d a b)

/-- `ldg.b32` (R200, R192). -/
def execLdgB32 (c : BitVec 2) (k : BitVec 1) (d a b : Reg) (s : State) : Result :=
  .next (s.checked (.ldgB32 c k d a b) fun s => s.globalLoad (.ldgB32 c k d a b) 4 c k d a b)

/-- `ldg.b64` (R200, R192). -/
def execLdgB64 (c : BitVec 2) (k : BitVec 1) (d a b : Reg) (s : State) : Result :=
  .next (s.checked (.ldgB64 c k d a b) fun s => s.globalLoad (.ldgB64 c k d a b) 8 c k d a b)

/-- `ldg.b128` (R200, R192). -/
def execLdgB128 (c : BitVec 2) (k : BitVec 1) (d a b : Reg) (s : State) : Result :=
  .next (s.checked (.ldgB128 c k d a b) fun s => s.globalLoad (.ldgB128 c k d a b) 16 c k d a b)

/-- `stg.b8` (R200, R192). -/
def execStgB8 (c : BitVec 2) (k : BitVec 1) (d a b : Reg) (s : State) : Result :=
  .next (s.checked (.stgB8 c k d a b) fun s => s.globalStore (.stgB8 c k d a b) 1 c k d a b)

/-- `stg.b16` (R200, R192). -/
def execStgB16 (c : BitVec 2) (k : BitVec 1) (d a b : Reg) (s : State) : Result :=
  .next (s.checked (.stgB16 c k d a b) fun s => s.globalStore (.stgB16 c k d a b) 2 c k d a b)

/-- `stg.b32` (R200, R192). -/
def execStgB32 (c : BitVec 2) (k : BitVec 1) (d a b : Reg) (s : State) : Result :=
  .next (s.checked (.stgB32 c k d a b) fun s => s.globalStore (.stgB32 c k d a b) 4 c k d a b)

/-- `stg.b64` (R200, R192). -/
def execStgB64 (c : BitVec 2) (k : BitVec 1) (d a b : Reg) (s : State) : Result :=
  .next (s.checked (.stgB64 c k d a b) fun s => s.globalStore (.stgB64 c k d a b) 8 c k d a b)

/-- `stg.b128` (R200, R192). -/
def execStgB128 (c : BitVec 2) (k : BitVec 1) (d a b : Reg) (s : State) : Result :=
  .next (s.checked (.stgB128 c k d a b) fun s => s.globalStore (.stgB128 c k d a b) 16 c k d a b)

/-- `lds` (R201). -/
def execLds (z : BitVec 2) (k : BitVec 1) (d a b : Reg) (s : State) : Result :=
  .next (s.checked (.lds z k d a b) fun s => s.spadLoad (.lds z k d a b) z k d a b)

/-- `sts` (R201). -/
def execSts (z : BitVec 2) (k : BitVec 1) (d a b : Reg) (s : State) : Result :=
  .next (s.checked (.sts z k d a b) fun s => s.spadStore (.sts z k d a b) z k d a b)

/-- `ldp` (R202). -/
def execLdp (z : BitVec 2) (k : BitVec 1) (d a b : Reg) (s : State) : Result :=
  .next (s.checked (.ldp z k d a b) fun s => s.privLoad (.ldp z k d a b) z k d a b)

/-- `stp` (R202). -/
def execStp (z : BitVec 2) (k : BitVec 1) (d a b : Reg) (s : State) : Result :=
  .next (s.checked (.stp z k d a b) fun s => s.privStore (.stp z k d a b) z k d a b)

/-- `ldx` (R203). -/
def execLdx (z : BitVec 2) (k : BitVec 1) (d a : Reg) (l : BitVec 4) (i : BitVec 3) (s : State) : Result :=
  .next (s.checked (.ldx z k d a l i) fun s => s.lexicalLoad (.ldx z k d a l i) z k d a l i)

/-- `stx` (R203). -/
def execStx (z : BitVec 2) (k : BitVec 1) (d a : Reg) (l : BitVec 4) (i : BitVec 3) (s : State) : Result :=
  .next (s.checked (.stx z k d a l i) fun s => s.lexicalStore (.stx z k d a l i) z k d a l i)

/-- `atomg.i32` (R205, R208). -/
def execAtomgI32 (c : BitVec 3) (d a b : Reg) (s : State) : Result :=
  .next (s.checked (.atomgI32 c d a b) fun s => s.globalAtomic (.atomgI32 c d a b) false false false false c d a b)

/-- `atomg.n32` (R205, R208). -/
def execAtomgN32 (c : BitVec 3) (d a b : Reg) (s : State) : Result :=
  .next (s.checked (.atomgN32 c d a b) fun s => s.globalAtomic (.atomgN32 c d a b) false true false false c d a b)

/-- `atomg.f32` (R205, R208, R207). -/
def execAtomgF32 (c : BitVec 3) (d a b : Reg) (s : State) : Result :=
  .next (s.checked (.atomgF32 c d a b) fun s => s.globalAtomic (.atomgF32 c d a b) false false true false c d a b)

/-- `atomg.i64` (R205, R208). -/
def execAtomgI64 (c : BitVec 3) (d a b : Reg) (s : State) : Result :=
  .next (s.checked (.atomgI64 c d a b) fun s => s.globalAtomic (.atomgI64 c d a b) true false false false c d a b)

/-- `atomg.n64` (R205, R208). -/
def execAtomgN64 (c : BitVec 3) (d a b : Reg) (s : State) : Result :=
  .next (s.checked (.atomgN64 c d a b) fun s => s.globalAtomic (.atomgN64 c d a b) true true false false c d a b)

/-- `atomd.i32` (R205, R208, R209). -/
def execAtomdI32 (c : BitVec 3) (d a b : Reg) (s : State) : Result :=
  .next (s.checked (.atomdI32 c d a b) fun s => s.globalAtomic (.atomdI32 c d a b) false false false true c d a b)

/-- `atomd.i64` (R205, R208, R209). -/
def execAtomdI64 (c : BitVec 3) (d a b : Reg) (s : State) : Result :=
  .next (s.checked (.atomdI64 c d a b) fun s => s.globalAtomic (.atomdI64 c d a b) true false false true c d a b)

/-- `atomy.i32` (R205, R208, R209). -/
def execAtomyI32 (c : BitVec 3) (d a b : Reg) (s : State) : Result :=
  .next (s.checked (.atomyI32 c d a b) fun s => s.globalAtomic (.atomyI32 c d a b) false false false true c d a b)

/-- `atomy.i64` (R205, R208, R209). -/
def execAtomyI64 (c : BitVec 3) (d a b : Reg) (s : State) : Result :=
  .next (s.checked (.atomyI64 c d a b) fun s => s.globalAtomic (.atomyI64 c d a b) true false false true c d a b)

/-- `atoms.i32` (R205). -/
def execAtomsI32 (c : BitVec 3) (d a b : Reg) (s : State) : Result :=
  .next (s.checked (.atomsI32 c d a b) fun s => s.spadAtomic (.atomsI32 c d a b) false false c d a b)

/-- `atoms.n32` (R205). -/
def execAtomsN32 (c : BitVec 3) (d a b : Reg) (s : State) : Result :=
  .next (s.checked (.atomsN32 c d a b) fun s => s.spadAtomic (.atomsN32 c d a b) true false c d a b)

/-- `atoms.f32` (R205, R207). -/
def execAtomsF32 (c : BitVec 3) (d a b : Reg) (s : State) : Result :=
  .next (s.checked (.atomsF32 c d a b) fun s => s.spadAtomic (.atomsF32 c d a b) false true c d a b)

/-- `atomx.i32` (R206). -/
def execAtomxI32 (c : BitVec 3) (d a : Reg) (l : BitVec 4) (i : BitVec 3) (s : State) : Result :=
  .next (s.checked (.atomxI32 c d a l i) fun s => s.lexicalAtomic (.atomxI32 c d a l i) false c d a l i)

/-- `atomx.i64` (R206). -/
def execAtomxI64 (c : BitVec 3) (d a : Reg) (l : BitVec 4) (i : BitVec 3) (s : State) : Result :=
  .next (s.checked (.atomxI64 c d a l i) fun s => s.lexicalAtomic (.atomxI64 c d a l i) true c d a l i)

end Sys2Proof.Machine
end

