-- ==== Sys2Proof/Machine/Scalar.lean ====
section
/-!
DEFINITION. The meanings of the scalar instructions, classes S and SI (R135 to R147).
-/

namespace Sys2Proof.Machine

/-- A scalar result with flags, under R130: sources are read before the destination is written. -/
def State.scalarResult (s : State) (d : Reg) (r : Word × Word) : State := s.finish fun w => (w.writeS d r.1).setFlags r.2

/-- A 64-bit scalar result with flags (R136). -/
def State.scalarResult64 (s : State) (d : Reg) (r : BitVec 64 × Word) : State := s.finish fun w => (w.writeS64 d r.1).setFlags r.2

/-- `sadd` (R136): s[a] + s[b] at 32 or 64 bits under the integer mode. -/
def execSadd (w : BitVec 1) (m : BitVec 2) (d a b : Reg) (s : State) : Result :=
  .next (s.checked (.sadd w m d a b) fun s => 
    if w = 0 then s.scalarResult d (addMode m (s.w.readS a) (s.w.readS b))
    else s.scalarResult64 d (addMode m (s.w.readS64 a) (s.w.readS64 b)))

/-- `ssub` (R136): s[a] − s[b] at 32 or 64 bits under the integer mode. -/
def execSsub (w : BitVec 1) (m : BitVec 2) (d a b : Reg) (s : State) : Result :=
  .next (s.checked (.ssub w m d a b) fun s => 
    if w = 0 then s.scalarResult d (subMode m (s.w.readS a) (s.w.readS b))
    else s.scalarResult64 d (subMode m (s.w.readS64 a) (s.w.readS64 b)))

/-- `smul` (R137). -/
def execSmul (m : BitVec 2) (d a b : Reg) (s : State) : Result :=
  .next (s.checked (.smul m d a b) fun s => s.scalarResult d (mulMode m (s.w.readS a) (s.w.readS b)))

/-- `sdiv` (R138): quotient to s[d], remainder to s[d+1]. -/
def execSdiv (u : BitVec 1) (d a b : Reg) (s : State) : Result :=
  .next (s.checked (.sdiv u d a b) fun s => 
    let r := divide (u == 1#1) (s.w.readS a) (s.w.readS b)
    s.finish fun w => (w.writeS d r.1).writeS (d + 1#7) r.2)

/-- `sand` (R139). -/
def execSand (d a b : Reg) (s : State) : Result :=
  .next (s.checked (.sand d a b) fun s => s.scalarResult d (s.w.readS a &&& s.w.readS b, 0))

/-- `sor` (R139). -/
def execSor (d a b : Reg) (s : State) : Result :=
  .next (s.checked (.sor d a b) fun s => s.scalarResult d (s.w.readS a ||| s.w.readS b, 0))

/-- `sxor` (R139). -/
def execSxor (d a b : Reg) (s : State) : Result :=
  .next (s.checked (.sxor d a b) fun s => s.scalarResult d (s.w.readS a ^^^ s.w.readS b, 0))

/-- `sandn` (R139). -/
def execSandn (d a b : Reg) (s : State) : Result :=
  .next (s.checked (.sandn d a b) fun s => s.scalarResult d (s.w.readS a &&& ~~~(s.w.readS b), 0))

/-- `sshl` (R139). -/
def execSshl (d a b : Reg) (s : State) : Result :=
  .next (s.checked (.sshl d a b) fun s => s.scalarResult d (s.w.readS a <<< shiftCount (s.w.readS b), 0))

/-- `sshr` (R139). -/
def execSshr (d a b : Reg) (s : State) : Result :=
  .next (s.checked (.sshr d a b) fun s => s.scalarResult d (s.w.readS a >>> shiftCount (s.w.readS b), 0))

/-- `ssra` (R139). -/
def execSsra (d a b : Reg) (s : State) : Result :=
  .next (s.checked (.ssra d a b) fun s => s.scalarResult d ((s.w.readS a).sshiftRight (shiftCount (s.w.readS b)), 0))

/-- `smin` (R140): i32, or n32 for mode 0b01. -/
def execSmin (m : BitVec 2) (d a b : Reg) (s : State) : Result :=
  .next (s.checked (.smin m d a b) fun s => s.scalarResult d (minWord (m == 1#2) (s.w.readS a) (s.w.readS b), 0))

/-- `smax` (R140): i32, or n32 for mode 0b01. -/
def execSmax (m : BitVec 2) (d a b : Reg) (s : State) : Result :=
  .next (s.checked (.smax m d a b) fun s => s.scalarResult d (maxWord (m == 1#2) (s.w.readS a) (s.w.readS b), 0))

/-- `scmp` (R141). -/
def execScmp (c : BitVec 3) (d a b : Reg) (s : State) : Result :=
  .next (s.checked (.scmp c d a b) fun s => s.scalarResult d (boolWord (condition false c (s.w.readS a) (s.w.readS b)), 0))

/-- `sclz` (R142). -/
def execSclz (d a : Reg) (s : State) : Result :=
  .next (s.checked (.sclz d a) fun s => s.scalarResult d (leadingZeros (s.w.readS a), 0))

/-- `spopc` (R142). -/
def execSpopc (d a : Reg) (s : State) : Result :=
  .next (s.checked (.spopc d a) fun s => s.scalarResult d (popCount (s.w.readS a), 0))

/-- The special registers of R123 by number, as the issuing fragment reads them. -/
def State.special (s : State) (n : Nat) : Word :=
  let w := s.w
  let nat (v : Nat) : Word := BitVec.ofNat 32 v
  let team := s.team
  let grid := s.grid
  match n with
  | 0 => if w.legacy then nat (2 * w.id.warp + w.wave) else nat w.id.warp
  | 1 => nat w.id.team
  | 2 => nat ((grid.map (·.teams)).getD 0)
  | 3 => nat w.id.grid
  | 4 => nat w.level
  | 5 => nat ((grid.map (·.cls)).getD 0)
  | 6 => nat s.clock
  | 7 => w.clockHi
  | 8 => nat w.core.n
  | 9 => nat w.wbase
  | 10 => nat w.valloc
  | 11 => w.gang
  | 12 => w.frag.fmt
  | 13 => w.nflags
  | 14 => nat ((team.map (·.variant)).getD 0)
  | 15 => nat ((team.map (·.warps)).getD 0)
  | 16 => nat ((team.map (·.spadsz)).getD 0)
  | 17 => nat w.privsz
  | 18 => w.faultInfo
  | 19 => nat w.faultVa
  | 20 => nat (w.faultVa % 2 ^ 57 / 2 ^ 32)
  | 21 => w.faultMask
  | _ => nat w.id.ctx

/-- `srd` (R143, R123): a read of clocklo latches bits 63:32 of the counter for clockhi. -/
def execSrd (d a : Reg) (s : State) : Result :=
  .next (s.checked (.srd d a) fun s => 
    let v := s.special a.toNat
    let hi : Word := BitVec.ofNat 32 (s.clock / 2 ^ 32)
    s.finish fun w => { w.writeS d v with clockHi := if a = 6#7 then hi else w.clockHi })

/-- `swr` of nflags (R144): bits 6:0. -/
def execSwr (a : Reg) (s : State) : Result :=
  .next (s.checked (.swr a) fun s => s.finish fun w => { w with nflags := w.readS a &&& 0x7F#32 })

/-- `saddi` (R145). -/
def execSaddi (d a : Reg) (i : BitVec 10) (s : State) : Result :=
  .next (s.checked (.saddi d a i) fun s => s.scalarResult d (s.w.readS a + i.signExtend 32, 0))

/-- `sandi` (R145). -/
def execSandi (d a : Reg) (i : BitVec 10) (s : State) : Result :=
  .next (s.checked (.sandi d a i) fun s => s.scalarResult d (s.w.readS a &&& i.setWidth 32, 0))

/-- `sori` (R145). -/
def execSori (d a : Reg) (i : BitVec 10) (s : State) : Result :=
  .next (s.checked (.sori d a i) fun s => s.scalarResult d (s.w.readS a ||| i.setWidth 32, 0))

/-- `sxori` (R145). -/
def execSxori (d a : Reg) (i : BitVec 10) (s : State) : Result :=
  .next (s.checked (.sxori d a i) fun s => s.scalarResult d (s.w.readS a ^^^ i.setWidth 32, 0))

/-- `smuli` (R145). -/
def execSmuli (d a : Reg) (i : BitVec 10) (s : State) : Result :=
  .next (s.checked (.smuli d a i) fun s => s.scalarResult d (s.w.readS a * i.signExtend 32, 0))

/-- `sshli` (R145). -/
def execSshli (d a : Reg) (n : BitVec 5) (s : State) : Result :=
  .next (s.checked (.sshli d a n) fun s => s.scalarResult d (s.w.readS a <<< n.toNat, 0))

/-- `sshri` (R145). -/
def execSshri (d a : Reg) (n : BitVec 5) (s : State) : Result :=
  .next (s.checked (.sshri d a n) fun s => s.scalarResult d (s.w.readS a >>> n.toNat, 0))

/-- `ssrai` (R145). -/
def execSsrai (d a : Reg) (n : BitVec 5) (s : State) : Result :=
  .next (s.checked (.ssrai d a n) fun s => s.scalarResult d ((s.w.readS a).sshiftRight n.toNat, 0))

/-- `scmpi` (R146): the immediate is sign-extended first. -/
def execScmpi (d a : Reg) (c : BitVec 3) (i : BitVec 7) (s : State) : Result :=
  .next (s.checked (.scmpi d a c i) fun s => s.scalarResult d (boolWord (condition false c (s.w.readS a) (i.signExtend 32)), 0))

/-- `sldi` (R147). -/
def execSldi (d : Reg) (i : BitVec 17) (s : State) : Result :=
  .next (s.checked (.sldi d i) fun s => s.scalarResult d (i.signExtend 32, 0))

/-- `sldhi` (R147): bits 31:15 from the immediate, bits 14:0 kept. -/
def execSldhi (d : Reg) (i : BitVec 17) (s : State) : Result :=
  .next (s.checked (.sldhi d i) fun s => s.scalarResult d (i ++ (s.w.readS d).extractLsb' 0 15, 0))

end Sys2Proof.Machine
end

