-- ==== Sys2Proof/Machine/Control.lean ====
section
/-!
DEFINITION. The meanings of the control instructions, class C (R174 to R190).
-/

namespace Sys2Proof.Machine

/-- Take a branch or continue (R176). -/
def State.branch (s : State) (taken : Bool) (dest : Addr) : State := if taken then s.jump dest else s.advance

/-- `bra` (R176). -/
def execBra (d : BitVec 24) (s : State) : Result := .next (s.checked (.bra d) fun s => s.jump (target s.pc d))

/-- `brany` (R176). -/
def execBrany (p : Pred) (d : BitVec 20) (s : State) : Result :=
  .next (s.checked (.brany p d) fun s => s.branch ((s.w.readP p &&& s.mask) != 0#32) (target s.pc d))

/-- `brall` (R176). -/
def execBrall (p : Pred) (d : BitVec 20) (s : State) : Result :=
  .next (s.checked (.brall p d) fun s => s.branch ((s.w.readP p &&& s.mask) == s.mask) (target s.pc d))

/-- `brz` (R176). -/
def execBrz (r : Reg) (d : BitVec 17) (s : State) : Result :=
  .next (s.checked (.brz r d) fun s => s.branch (s.w.readS r == 0#32) (target s.pc d))

/-- `brnz` (R176). -/
def execBrnz (r : Reg) (d : BitVec 17) (s : State) : Result :=
  .next (s.checked (.brnz r d) fun s => s.branch (s.w.readS r != 0#32) (target s.pc d))

/-- `jmpr` (R178). -/
def execJmpr (r : Reg) (s : State) : Result := .next (s.checked (.jmpr r) fun s => s.jump (s.w.readS64 r))

/-- The writes of a split to the warp's split stack: each entry's number with its bytes (R19, R177). -/
def splitWrites (w : Warp) (rec' : Nat) (record : SplitEntry) (side : Option (Nat × Fragment)) : List (Nat × List Byte) :=
  let queue := w.spill[w.queueIx w.cur]
  (rec', splitBytes record none) ::
    match side with
    | none => []
    | some (i, f) =>
      let link := match queue.getLast? with
        | none => []
        | some tail => match w.split[tail]? with
          | some (.spilled t) => [(tail, splitBytes (.spilled t) (some i))]
          | _ => []
      (i, splitBytes (.spilled f) none) :: link

/-- The split of a fragment (R15): the fall-through side keeps its slot, the taken side enters the other slot if it is empty, else a
split-stack entry at the tail of the spill queue; a legacy wave always spills it (R31). R33 does not say what its count does while the queue
is empty: it starts at 0 with the first fragment spilled, the model's choice (log 48). -/
def State.split (s : State) (t f : Mask) (dest join : Addr) : State :=
  let w := s.w
  let m := w.frag.mask
  let other : Fin 2 := if w.cur = 0 then 1 else 0
  let spills := w.legacy || w.slots[other].st != .empty
  match w.freeEntries, spills with
  | [], _ => s.raiseCode 0x13
  | [_], true => s.raiseCode 0x13
  | rec' :: more, spills =>
    let record : SplitEntry := .record w.frag.record join m w.frag.fmt 2
    let sideFrag : Fragment := ⟨dest, t, w.frag.fmt, some rec', s.clock⟩
    let sideEntry := if spills then more.head? else none
    let writes := splitWrites w rec' record (sideEntry.map fun i => (i, sideFrag))
    let reqs : List LaneReq := writes.map fun p => ⟨0, w.entryVa p.1, 0, 0, 16⟩
    match writes.find? fun p => s.privWriteCode w (w.entryVa p.1) 16 != 0 with
    | some p =>
      let code := s.privWriteCode w (w.entryVa p.1) 16
      (s.privMet w [((0, w.entryVa p.1), code)]).raise { code := code, mask := m, va := w.entryVa p.1, write := true }
    | none =>
      match s.privWaits w .store reqs with
      | some h => s.holdFor h
      | none =>
        let s := writes.foldl (fun s p => s.privWrite w (w.entryVa p.1) p.2) (s.privDrain w .store reqs)
        let w := (s.w.setEntry rec' record).setFrag fun g => ⟨nextPc g.pc, f, g.fmt, some rec', g.entered⟩
        let w := match sideEntry with
          | some i =>
            let q := w.queueIx w.cur
            { w.setEntry i (.spilled sideFrag) with
              spill := w.spill.set q (w.spill[q] ++ [i])
              rotation := if w.spill[q].isEmpty then w.rotation.set q 0 else w.rotation }
          | none => w.putSlot other ⟨.live, sideFrag⟩
        { s with w := w }

/-- `brd` (R15, R177). -/
def execBrd (p : Pred) (t j : BitVec 10) (s : State) : Result :=
  .next (s.checked (.brd p t j) fun s =>
    let m := s.mask
    let taken := m &&& s.w.readP p
    let rest := m &&& ~~~(s.w.readP p)
    if taken = 0#32 then s.advance
    else if rest = 0#32 then s.jump (target s.pc t)
    else s.split taken rest (target s.pc t) (target s.pc j))

/-- The return-stack words of R179 at some level of each active thread, as translated by an access; or the state after the fault. -/
def State.returnLanes (s : State) (a : Access) (level : Nat → Nat) : Except State (List LaneReq) :=
  let w := s.w
  match s.translateLanes a (s.lanes.map fun t => (t, w.returnVa (level w.depth[Fin.ofNat 32 t]) t)) with
  | .error (c, lanes) => .error ((s.raiseLanes c lanes a.writes).walkMet w.id.ctx c (((lanes.head?).map (·.2)).getD 0))
  | .ok ls => .ok (ls.map fun p => ⟨p.1.1, p.1.2, p.2, 0, 8⟩)

/-- Change the call depth of each active thread. -/
def State.setDepth (s : State) (f : Nat → Nat) : State :=
  let m := s.mask
  s.setW fun w => { w with depth := Vector.ofFn fun t => if m.getLsbD t.val then f w.depth[t] else w.depth[t] }

/-- The call of R180: a return address for each active thread, then the transfer. -/
def State.callTo (s : State) (dest : Addr) : State :=
  let w := s.w
  if s.lanes.any fun t => w.depth[Fin.ofNat 32 t] == 32 then s.raiseCode 0x0C
  else
    match s.returnLanes .store id with
    | .error s => s
    | .ok l =>
      match s.privWaits w .store l with
      | some h => s.holdFor h
      | none =>
        let s := s.privDrain w .store l
        let data := l.map fun r => ({ r with ha := r.va }, leBytes 8 ((nextPc s.pc).toNat % 2 ^ 57))
        let bad := s.privStoreBad w data
        if !bad.isEmpty then (s.privMet w bad).stopPerformed w.id s.pc bad true
        else (((storeWrites data).foldl (fun s q => s.privWrite w q.1 q.2) s).setDepth (· + 1)).jump dest

/-- `call` (R180). -/
def execCall (d : BitVec 24) (s : State) : Result := .next (s.checked (.call d) fun s => s.callTo (target s.pc d))

/-- `callr` (R178, R180). -/
def execCallr (r : Reg) (s : State) : Result := .next (s.checked (.callr r) fun s => s.callTo (s.w.readS64 r))

/-- The return words have arrived: the checks on them, and the return (R181). -/
def State.returnWith (s : State) (l : List LaneReq) : State :=
  let w := s.w
  let s := s.privDrain w .load l
  let bad := s.privBad w l
  let r := s.privReads w l
  if !bad.isEmpty then r.1.stopPerformed w.id s.pc bad false
  else
    match (r.2.map fun p => leNat p.2).eraseDups with
    | [dest] =>
      let dest := BitVec.ofNat 64 dest
      if badTarget dest then r.1.raiseCode 0x04 else (r.1.setDepth (· - 1)).jump dest
    | _ => r.1.raiseCode 0x13

/-- The return of R181: a word predicted to miss L1 is a load, for which the fragment waits (R22). -/
def State.returnTo (s : State) : State :=
  let w := s.w
  if s.lanes.any fun t => w.depth[Fin.ofNat 32 t] == 0 then s.raiseCode 0x0C
  else
    match s.returnLanes .load (· - 1) with
    | .error s => s
    | .ok l =>
      match w.loads.find? fun x => x.kind == .returnWords && x.pc == s.pc && x.lanes.map (·.va) == l.map (·.va) with
      | some x =>
        if x.data.isNone then s.holdFor (.loadResult x.missed)
        else (s.setW fun w => { w with loads := w.loads.filter fun y => y.id != x.id }).returnWith l
      | none =>
        match s.privWaits w .load l with
        | some h => s.holdFor h
        | none =>
          if !s.misses l then s.returnWith l
          else
            let x : Load := ⟨s.nextId, s.pc, 8, 0, l, .returnWords, none, 0, (sectorsOf l).length, true, none, s.clock, []⟩
            ({ s with nextId := s.nextId + 1, w := { w with loads := w.loads ++ [x] } } : State).holdFor (.loadResult true)

/-- `ret` (R181). -/
def execRet (s : State) : Result := .next (s.checked .ret fun s => s.returnTo)

/-- `loop` (R183). -/
def execLoop (r : Reg) (b : BitVec 12) (s : State) : Result :=
  .next (s.checked (.loop r b) fun s =>
    let n := s.w.readS r
    let last := s.pc + 4#64 * b.setWidth 64
    if n = 0#32 then s.jump (nextPc last)
    else
      match s.w.levels.find? fun l => !s.w.loops[l].live with
      | none => s.raiseCode 0x14
      | some l =>
        let level : LoopLevel := ⟨true, nextPc s.pc, last, n, s.mask, s.w.loopOrder⟩
        (s.setW fun w => { w with loops := w.loops.set l level, loopOrder := w.loopOrder + 1 }).jump (nextPc s.pc))

/-- `lbrk` (R185). -/
def execLbrk (s : State) : Result :=
  .next (s.checked .lbrk fun s =>
    match s.w.innermost s.mask with
    | none => s.raiseCode 0x14
    | some l =>
      if !s.w.ownsLevel l s.mask then s.raiseCode 0x14
      else
        let dest := nextPc s.w.loops[l].le
        (s.setW fun w => w.freeLevel l).jump dest)

/-- Open matrix operations and copies are closed into batches (R215, R216, R252). -/
def Warp.closeOpen (w : Warp) : Warp :=
  { w with
    tileBatches := if w.openOps.isEmpty then w.tileBatches else w.tileBatches ++ [⟨w.openOps⟩]
    openOps := []
    copyBatches := if w.openCopies.isEmpty then w.copyBatches else w.copyBatches ++ [⟨w.openCopies⟩]
    openCopies := [] }

/-- Copy batches complete in order once all their copies have completed (R216). -/
def State.settleCopies (s : State) (id : WarpId) : State :=
  s.setWarp id fun w => { w with copyBatches := w.copyBatches.dropWhile fun b => !(b.ops.any fun k => s.copies.any fun c => c.id == k) }

/-- The fragment held at a switch point continues at next(pc) (R252); while a handler runs, that is the fragment kept at its entry. -/
def Warp.leaveSwitch (w : Warp) : Warp :=
  let w := match w.handler with
    | none => w.advance
    | some h =>
      let x := (({ w with cur := h.slot } : Warp).setFrag fun _ => h.frag).advance
      { x with cur := w.cur, slots := w.slots, handler := some { h with frag := x.frag } }
  { w with atSwitch := none }

/-- The switch request of a team is withdrawn: every held warp continues at next(pc) in its variant (R252). -/
def State.withdrawSwitch (s : State) (id : TeamId) : State :=
  let s := s.setTeam id fun t => { t with request := none }
  s.mapWarps (fun w => w.id.teamId == id && w.atSwitch.isSome) Warp.leaveSwitch

/-- The warps held in a latch, with the slots of their instructions. -/
def Latch.held (l : Latch) : List (Nat × Fin 2) := l.arrived.map fun a => (a.1, a.2.2)

/-- Raise a fault in each of the warps held in rendezvous latches, which fault (R29); `more` is an arriving warp. -/
def State.raiseHeld (s : State) (team : TeamId) (ls : List Latch) (more : List (Nat × Fin 2)) (code : Code) : State :=
  let s := { s with latches := s.latches.filter fun x => !ls.contains x }
  s.raiseTogether team (ls.flatMap Latch.held ++ more) code

/-- Warp k of the team belongs to the gang value (R28). -/
def gangHas (g : Word) (k : Nat) : Bool := (bitsOf g.toNat 10 8 == k / 8) && g.getLsbD (k % 8)

/-- What follows a warp's final exit (R187): its open work is closed, a switch request is withdrawn, and warps that wait for it in a
latch raise 0x10 (R29, R252). -/
def State.finalExit (s : State) : State :=
  let id := s.w.id
  let s := (s.setW Warp.closeOpen).settleCopies id
  let s := match s.team? id.teamId with
    | some t => if t.request.any (fun (r : SwitchReq) => r.warps.contains id.warp) then s.withdrawSwitch id.teamId else s
    | none => s
  let ls := s.latches.filter fun (l : Latch) => l.team == id.teamId && gangHas l.gang id.warp
  if ls.isEmpty then s else s.raiseHeld id.teamId ls [] 0x10

/-- The fragment's threads end, in the cycle `now` (R17, R187). -/
def Warp.exitFragment (w : Warp) (now : Nat) : Warp :=
  let f := w.frag
  let w := ({ w with exited := w.exited ||| f.mask } : Warp).emptySlot w.cur
  let w := w.leaveRecord w.cur now 64 f.record
  w.freeDeadLevels.refill now

/-- `exit` (R187). -/
def execExit (s : State) : Result :=
  .next (s.checked .exit fun s =>
    let w := s.w.exitFragment s.clock
    let s := { s.writeRecords s.w w with w := w }
    if s.w.allExited then s.finalExit else s)

/-- `trap` (R188): raised after the instruction completes. -/
def execTrap (c : BitVec 16) (s : State) : Result :=
  .next (s.checked (.trap c) fun s =>
    let s := s.advance
    s.raise { code := 0x17, mask := s.mask, detail := c.toNat })

/-- `nop` (R189). -/
def execNop (s : State) : Result := .next (s.checked .nop State.advance)

/-- `yield` (R189): no effect but the yield condition of R22. -/
def execYield (s : State) : Result := .next (s.checked .yield fun s => s.finish fun w => { w with yielded := w.yielded.set w.cur true })

/-- `brkpt` (R188): raised after the instruction completes. -/
def execBrkpt (s : State) : Result :=
  .next (s.checked .brkpt fun s =>
    let s := s.advance
    s.raise { code := 0x18, mask := s.mask })

end Sys2Proof.Machine
end

