-- ==== Sys2Proof/Machine/Tiles.lean ====
section
/-!
DEFINITION. Tile records (R89 to R92), the addresses of their elements (R90, R40), and reading and writing tiles by an engine.
-/

namespace Sys2Proof.Machine

/-! ### Records -/

/-- The fields of a record's 64 bytes (R89). -/
def parseRecord (b : List Byte) : TileRecord where
  base := leAt b 0 8 % 2 ^ 57
  baseHigh := leAt b 0 8 / 2 ^ 57
  owner := leAt b 8 2 % 2 ^ 12
  valid := leAt b 8 2 / 2 ^ 15 == 1
  ownerZero := leAt b 8 2 / 2 ^ 12 % 8
  format := leAt b 10 1 % 16
  packing := leAt b 10 1 / 16 % 4
  formZero := leAt b 10 1 / 64
  rank := leAt b 11 1
  dims := [leAt b 12 4, leAt b 16 4, leAt b 20 4, leAt b 24 4]
  strides := [leAt b 28 8, leAt b 36 8, leAt b 44 8]
  rows := leAt b 52 1
  cols := leAt b 53 1
  scale := leAt b 54 2
  rot := leAt b 56 1
  zero := leAt b 57 3
  seed := leAt b 60 4

/-- Dimension k of a record. -/
def TileRecord.dim (r : TileRecord) (k : Nat) : Nat := (r.dims[k]?).getD 1

/-- Byte stride of dimension k, from 1 to 3. -/
def TileRecord.stride (r : TileRecord) (k : Nat) : Nat := (r.strides[k - 1]?).getD 0

/-- A 6-bit format: LG6 or E2M3. -/
def sixBit (f : Nat) : Bool := f == 0 || f == 6

/-- The span of the nibble plane of planar data, from its lowest to one past its highest byte (R40). -/
def TileRecord.span (r : TileRecord) : Nat :=
  (r.dim 0 + 1) / 2 + (r.dim 1 - 1) * r.stride 1 + (r.dim 2 - 1) * r.stride 2 + (r.dim 3 - 1) * r.stride 3

/-- Offset of the 2-bit plane (R40): the span rounded up to a power of two. -/
def TileRecord.plane (r : TileRecord) : Nat := powerAtLeast r.span 64 1

/-- The packing conditions of R40, and R41 while the packing unit has not passed its self-test. -/
def TileRecord.packingOk (r : TileRecord) (selfTest : Bool) : Bool :=
  (match r.packing with
    | 0 => sixBit r.format && r.dim 0 % 4 == 0
    | 1 => true
    | 2 => sixBit r.format && r.dim 0 % 4 == 0 && r.base % 256 == 0 && r.plane % 256 == 0 && r.strides.all fun x => x % 2 == 0
    | _ => false) && (selfTest || !sixBit r.format || r.packing == 2)

/-- The conditions of R91 on the record's contents, for a using context. R89 gives rot the values 0 to 3, and no rule says what the others
do: the model refuses such a record with 0x11, the model's choice (log 46). -/
def TileRecord.ok (r : TileRecord) (ctx : Nat) (selfTest : Bool) : Bool :=
  r.valid && r.owner == ctx && r.baseHigh == 0 && r.ownerZero == 0 && r.formZero == 0 && r.zero == 0 && decide (r.rot ≤ 3) &&
    decide (1 ≤ r.rank) && decide (r.rank ≤ 4) && (r.dims.all (· != 0)) && decide (r.rows ≤ 10) && decide (r.cols ≤ 10) &&
    r.base % 16 == 0 && (r.strides.all fun x => x % 16 == 0) && decide (r.format ≤ 8) && r.packingOk selfTest

/-- The 64 bytes of a handle's record as one unit from memory (R92), a read that obeys noread as a read by an engine does (R66): 0x11, or 0x15 and
0x16 for a poisoned or failing sector (R91). -/
def State.recordBytesAt (s : State) (ctx : Nat) (handle : Nat) : Except Code (List Byte) :=
  match s.ctx? ctx with
  | none => .error 0x11
  | some c =>
    if handle = 0 ∨ 2 ^ 16 ≤ handle then .error 0x11
    else
      match s.unitRead ctx (c.recordTable + 64 * handle) 64 true with
      | .error e => .error (if e == 0x15 || e == 0x16 then e else 0x11)
      | .ok b => .ok b

/-- The record that 64 bytes hold, if the context may use it (R91). -/
def State.recordOf (s : State) (ctx : Nat) (b : List Byte) : Except Code TileRecord :=
  let r := parseRecord b
  if r.ok ctx (s.sluice.packingOk && !s.sluice.recovery && !s.sluice.testImage) then .ok r else .error 0x11

/-- The record of a handle for use (R91), read from memory. R92 speaks of copies of records that copy engines have cached, and no rule says what
they hold or when: here they read each record from memory, the model's choice (log 82). -/
def State.useRecord (s : State) (ctx : Nat) (handle : Nat) : Except Code TileRecord :=
  match s.recordBytesAt ctx handle with
  | .error e => .error e
  | .ok b => s.recordOf ctx b

/-- The record of a handle that a core's fetcher holds in its cache (R214). -/
def State.heldRecord (s : State) (core : CoreId) (ctx handle : Nat) : Option (List Byte) :=
  ((s.core core).records.find? fun r => r.ctx == ctx && r.handle == handle).map (·.bytes)

/-- The record of a handle as a core's fetcher reads it (R214): from its cache, else from memory. -/
def State.fetchRecord (s : State) (core : CoreId) (ctx handle : Nat) : Except Code TileRecord :=
  match s.heldRecord core ctx handle with
  | some b => s.recordOf ctx b
  | none => s.useRecord ctx handle

/-- What reading the records of these handles leaves behind, in this order, up to the first that fails: accessed bits (R68), and a failing
check value poisons the record's sector (R94). -/
def State.recordReads (s : State) (ctx : Nat) (handles : List Nat) : State :=
  match s.ctx? ctx with
  | none => s
  | some x => s.unitReads ctx ((handles.filter fun h => h != 0 && decide (h < 2 ^ 16)).map fun h => (x.recordTable + 64 * h, 64)) true

/-- The fetcher of a core keeps the bytes of a record; of 64 that it holds, a free one gives way (R214). -/
def State.keepRecord (s : State) (core : CoreId) (r : HeldRecord) : State :=
  let held := (s.core core).records
  if held.length < 64 then s.setCore core fun k => { k with records := r :: k.records }
  else { s.setCore core fun k => { k with records := r :: held.eraseIdx (Config.way s.freeIx % 64) } with freeIx := s.freeIx + 1 }

/-- What a fetcher's reads of the records of these handles leave behind, in this order, up to the first that fails (R214): those that it does not
hold are read from memory and kept. -/
def State.fetchReads (s : State) (core : CoreId) (ctx : Nat) (handles : List Nat) : State :=
  (handles.foldl (fun (acc : State × Bool) h =>
    if !acc.2 || (acc.1.heldRecord core ctx h).isSome then acc
    else
      match acc.1.recordBytesAt ctx h with
      | .error _ => (acc.1.recordReads ctx [h], false)
      | .ok b => ((acc.1.recordReads ctx [h]).keepRecord core ⟨ctx, h, b⟩, true)) (s, true)).1

/-- Every cached copy of a record is dropped (R92). -/
def State.dropRecord (s : State) (p : HeldRecord → Bool) : State :=
  { s with cores := s.cores.map fun k => if k.records.any p then { k with records := k.records.filter fun r => !p r } else k }

/-- The faulting address of a fault that the reading of one of these records raised (R94, R325, R326): for a poisoned or failing sector, the address
of the first record that meets it; else 0. -/
def State.recordVa (s : State) (ctx : Nat) (c : Code) (handles : List Nat) : Nat :=
  if c != 0x15 && c != 0x16 then 0
  else
    match handles.find? fun h => match s.recordBytesAt ctx h with | .error e => e == c | .ok _ => false with
    | some h => ((s.ctx? ctx).map (·.recordTable)).getD 0 + 64 * h
    | none => 0

/-- A fault of the instruction that the check of a record raised. -/
def State.raiseRecord (s : State) (ctx : Nat) (c : Code) (handles : List Nat) : State :=
  s.raise { code := c, mask := s.mask, va := s.recordVa ctx c handles }

/-- A handle, and the scale record that its record names. -/
def State.withScale (s : State) (core : CoreId) (ctx handle : Nat) : List Nat :=
  match s.fetchRecord core ctx handle with
  | .ok r => [handle, r.scale]
  | .error _ => [handle]

/-- A scale record for a mode (R46): format 8, packing 1, and rank 1 in mode 2. -/
def scaleRecordOk (mode : Nat) (r : TileRecord) : Bool := r.format == 8 && r.packing == 1 && (mode != 2 || r.rank == 1)

/-- The scale record that an operand's record names, in scale modes 1 and 2 (R46). -/
def State.useScale (s : State) (core : CoreId) (ctx mode : Nat) (r : TileRecord) : Except Code (Option TileRecord) :=
  if mode = 0 then .ok none
  else
    match s.fetchRecord core ctx r.scale with
    | .error e => .error e
    | .ok sc => if scaleRecordOk mode sc then .ok (some sc) else .error 0x11

/-! ### Elements -/

/-- The indices of element (i, j) of a tile (R90): dimension-0 index and flattened row index. -/
def TileRecord.index (r : TileRecord) (row col i j : Nat) : Nat × Nat := (col * 2 ^ r.cols + j, row * 2 ^ r.rows + i)

/-- The indices lie within the tensor. R89 says that an unused dimension holds 1, and no rule refuses another value: the model uses all
four dimensions whatever the rank is, the model's choice (log 47). -/
def TileRecord.inside (r : TileRecord) (x y : Nat) : Bool :=
  decide (x < r.dim 0) && decide (y < r.dim 1 * r.dim 2 * r.dim 3)

/-- Byte offset of a flattened row. -/
def TileRecord.rowOff (r : TileRecord) (y : Nat) : Nat :=
  y % r.dim 1 * r.stride 1 + y / r.dim 1 % r.dim 2 * r.stride 2 + y / (r.dim 1 * r.dim 2) * r.stride 3

/-- The bits of an element in memory (R40): pieces of (byte address, lowest bit, number of bits), low bits first. -/
def TileRecord.bits (r : TileRecord) (x y : Nat) : List (Nat × Nat × Nat) :=
  let off := r.rowOff y
  let wrap (a : Nat) : Nat := a % 2 ^ 64
  if sixBit r.format then
    match r.packing with
    | 0 =>
      let at' := r.base + off + x / 4 * 3
      match x % 4 with
      | 0 => [(wrap at', 0, 6)]
      | 1 => [(wrap at', 6, 2), (wrap (at' + 1), 0, 4)]
      | 2 => [(wrap (at' + 1), 4, 4), (wrap (at' + 2), 0, 2)]
      | _ => [(wrap (at' + 2), 2, 6)]
    | 2 => [(wrap (r.base + off + x / 2), x % 2 * 4, 4), (wrap (r.base + r.plane + off / 2 + x / 4), x % 4 * 2, 2)]
    | _ => [(wrap (r.base + off + x), 0, 6)]
  else
    match r.format with
    | 3 | 4 => [(wrap (r.base + off + 2 * x), 0, 8), (wrap (r.base + off + 2 * x + 1), 0, 8)]
    | 5 => (List.range 4).map fun k => (wrap (r.base + off + 4 * x + k), 0, 8)
    | 7 => [(wrap (r.base + off + x / 2), x % 2 * 4, 4)]
    | _ => [(wrap (r.base + off + x), 0, 8)]

/-- Byte-padded elements are written whole: bits 7:6 become zero (R40). -/
def TileRecord.writeBits (r : TileRecord) (x y : Nat) : List (Nat × Nat × Nat) :=
  if sixBit r.format && r.packing == 1 then (r.bits x y).map fun p => (p.1, 0, 8) else r.bits x y

/-- The elements of a tile, as rows of indices. -/
def TileRecord.cells (r : TileRecord) (row col : Nat) : List (List (Nat × Nat)) :=
  (List.range (2 ^ r.rows)).map fun i => (List.range (2 ^ r.cols)).map fun j => r.index row col i j

/-- The byte addresses of the elements of a tile that lie within the tensor. -/
def TileRecord.addresses (r : TileRecord) (row col : Nat) : List Nat :=
  (r.cells row col).flatten.flatMap fun p => if r.inside p.1 p.2 then (r.bits p.1 p.2).map (·.1) else []

/-! ### An engine's accesses -/

/-- Who performs an engine access: its TLB, its context, its mode. -/
structure Engine where
  tlb : TlbHome
  ctx : Nat
  super : Bool
  deriving DecidableEq, Repr

/-- The byte at an address, or the fault met (R66, R79, R93, R94). -/
def State.engineByte (s : State) (e : Engine) (va : Nat) : Except (Code × Nat) Byte :=
  match s.translate e.tlb e.ctx .engineRead e.super va with
  | .error c => .error (c, va)
  | .ok ha =>
    let c := s.sectorCode e.ctx ha 1
    -- a copy engine or fetcher verifies every sector that it reads
    if c != 0 then .error (c, va)
    else if isDram ha && !s.verifies (sectorOf ha) then .error (0x16, va)
    else .ok (s.mem.read ha)

/-- The code of an element from its pieces. -/
def State.engineElement (s : State) (e : Engine) (pieces : List (Nat × Nat × Nat)) : Except (Code × Nat) Nat :=
  (pieces.foldl (fun (acc : Except (Code × Nat) (Nat × Nat)) p =>
    match acc with
    | .error c => .error c
    | .ok (v, k) =>
      match s.engineByte e p.1 with
      | .error c => .error c
      | .ok b => .ok (v + b.toNat / 2 ^ p.2.1 % 2 ^ p.2.2 * 2 ^ k, k + p.2.2)) (.ok (0, 0))).map (·.1)

/-- All results, or the first error. -/
def sequence {ε α : Type} : List (Except ε α) → Except ε (List α)
  | [] => .ok []
  | .error e :: _ => .error e
  | .ok x :: rest => match sequence rest with | .error e => .error e | .ok xs => .ok (x :: xs)

/-- The element codes of a tile by rows; elements outside the tensor read as zero (R90). -/
def State.tileRead (s : State) (e : Engine) (r : TileRecord) (row col : Nat) : Except (Code × Nat) (List (List Nat)) :=
  sequence ((r.cells row col).map fun cells =>
    sequence (cells.map fun p => if r.inside p.1 p.2 then s.engineElement e (r.bits p.1 p.2) else .ok 0))

/-- Bits written over a byte. -/
def patchByte (b : Byte) (lo n v : Nat) : Byte :=
  let m : Byte := BitVec.ofNat 8 ((2 ^ n - 1) * 2 ^ lo)
  (b &&& ~~~m) ||| (BitVec.ofNat 8 (v % 2 ^ n * 2 ^ lo) &&& m)

/-- The bit pieces that a tile of codes writes, for the elements within the tensor: byte address, low bit, bits, value. -/
def TileRecord.writes (r : TileRecord) (row col : Nat) (codes : List (List Nat)) : List (Nat × Nat × Nat × Nat) :=
  ((r.cells row col).zip codes).flatMap fun q =>
    (q.1.zip q.2).flatMap fun c =>
      if !r.inside c.1.1 c.1.2 then []
      else ((r.writeBits c.1.1 c.1.2).foldl (fun (acc : List (Nat × Nat × Nat × Nat) × Nat) p =>
        (acc.1 ++ [(p.1, p.2.1, p.2.2, acc.2 % 2 ^ p.2.2)], acc.2 / 2 ^ p.2.2)) ([], c.2)).1

/-- The first fault that a list of byte addresses meets as engine writes. -/
def State.engineWriteFault (s : State) (e : Engine) (vas : List Nat) : Option (Code × Nat) :=
  vas.findSome? fun va =>
    match s.translate e.tlb e.ctx .engineWrite e.super va with
    | .error c => some (c, va)
    | .ok ha => let c := s.storeCode e.ctx ha; if c == 0 then none else some (c, va)

/-- Write bytes, given as address, low bit, number of bits and value; the sectors that are covered wholly are written as one. -/
def State.engineWrite (s : State) (e : Engine) (log : Option CoreId) (w : List (Nat × Nat × Nat × Nat)) : State :=
  let s := ((w.map fun p => p.1 / 4096 * 4096).eraseDups).foldl (fun s va => s.touch e.tlb e.ctx va true) s
  let home (va : Nat) : Option Nat := match s.translate e.tlb e.ctx .engineWrite e.super va with | .ok ha => some ha | .error _ => none
  let sectors := (w.map fun p => p.1 / 64 * 64).eraseDups
  sectors.foldl (fun s sec =>
    match home sec with
    | none => s
    | some ha =>
      let img := (w.filter fun p => p.1 / 64 * 64 == sec).foldl (fun (img : List (Nat × Byte)) p =>
        let old := ((img.find? fun q => q.1 == p.1).map (·.2)).getD (s.mem.read (ha + (p.1 - sec)))
        (p.1, patchByte old p.2.1 p.2.2.1 p.2.2.2) :: img.filter fun q => q.1 != p.1) []
      let whole := (List.range 64).all fun o => img.any fun q => q.1 == sec + o
      if whole then
        s.homeStore log e.ctx ha ((List.range 64).map fun o => ((img.find? fun q => q.1 == sec + o).map (·.2)).getD 0)
      else img.foldl (fun s q => s.homeStore log e.ctx (ha + (q.1 - sec)) [q.2]) s) s

/-- What an engine's reads leave in its TLB and in L2; each sector that it reads is verified, one held in L2 too (R93, R94). -/
def State.engineTouch (s : State) (e : Engine) (vas : List Nat) : State :=
  let s := ((vas.map fun va => va / 4096 * 4096).eraseDups).foldl (fun s va => s.touch e.tlb e.ctx va false) s
  ((vas.map fun va => va / 64 * 64).eraseDups).foldl (fun s va =>
    match s.translate e.tlb e.ctx .engineRead e.super va with
    | .ok ha => if isDram ha && s.sectorCode e.ctx ha 1 != 0x0A then (s.sectorFill e.ctx ha 64).verify (sectorOf ha) else s
    | .error _ => s) s

/-- The lines that byte addresses lie in, where they translate (R286). -/
def State.engineLines (s : State) (e : Engine) (a : Access) (vas : List Nat) : List Nat :=
  ((vas.map fun va => va / 64 * 64).eraseDups.filterMap fun va =>
    match s.translate e.tlb e.ctx a e.super va with
    | .ok ha => some (lineOf ha)
    | .error _ => none).eraseDups

/-- A core gives up its own L1 copies of lines that an engine owns (R286); dirty private bytes are written back first. -/
def State.ownLines (s : State) (core : CoreId) (ctx : Nat) (lines : List Nat) : State :=
  let mine (x : L1Sector) : Bool := x.core == core && x.ctx == ctx && lines.contains (lineOf x.ha)
  let s := s.l1WriteBackAll mine
  { s with l1 := s.l1.filter fun x => !mine x }

/-- No link can carry the accesses of an engine operation (R364), or an earlier unfinished one stands in the way of lines to read or to
own (R286). -/
def State.engineBlocked (s : State) (id : Nat) (core : CoreId) (reads lines : List Nat) : Bool :=
  let me : Holder := ⟨id, ⟨0, 0, 0, 0⟩, core, lines, reads, [], none⟩
  ((reads ++ lines).any fun l => !s.reachable l) || s.holders.any me.awaits

/-- An engine has written these lines for an operation of the warp: a write that the host or a peer can observe is irrevocable (R293), and a
checkpoint follows it as R335 says of stores and atomics; none for a context whose teams are in their save records (log 66). -/
def State.wroteFar (s : State) (warp : WarpId) (homes : List Nat) : State :=
  if homes.all isDram || (s.ctx? warp.ctx).any (·.savedOut) then s else s.irrevocable warp

/-- The earlier stores of the issuing warp to lines that an engine reads or writes are performed first, after the core's earlier ones, and
private bytes of the core are written back (R288). A store of them whose line a later engine of another warp owns would wait for that engine
(R286), and that engine for this one: the store goes first, the model's choice (log 61). -/
def State.engineDrain (s : State) (id : Nat) (core : CoreId) (warp : WarpId) (lines : List Nat) : State :=
  let mine (p : PendStore) : List Nat := sectorsOf ((p.lanes.map (·.1)).filter fun r => lines.contains (lineOf r.ha))
  let s := (s.stores.filter fun p => p.warp == warp && decide (p.id < id) && !(mine p).isEmpty).foldl
    (fun s p => s.landSectors p.core warp.ctx (some p.id) (mine p) true) s
  s.l1WriteBackAll fun x => x.core == core && x.ctx == warp.ctx && lines.contains (lineOf x.ha)

/-- An earlier atomic of the issuing warp overlaps the lines of an engine operation and has not been performed (R288). -/
def State.engineAwaits (s : State) (id : Nat) (warp : WarpId) (lines : List Nat) : Bool :=
  match s.warp? warp with
  | none => false
  | some w => w.loads.any fun x => decide (x.id < id) && x.data.isNone && (match x.kind with | .atomic .. => true | _ => false) &&
      x.lanes.any fun r => lines.contains (lineOf r.ha)

end Sys2Proof.Machine
end

