-- ==== Sys2Proof/Machine/Matrix.lean ====
section
/-!
DEFINITION. The meanings of the matrix instructions (R214 to R230): claims, the matrix queue, rendezvous latches, and the events in
which queued operations are performed and tile batches complete.
-/

namespace Sys2Proof.Machine

/-! ### The format register (R42) -/

def fmtA (f : Word) : Nat := bitsOf f.toNat 3 0
def fmtB (f : Word) : Nat := bitsOf f.toNat 7 4
def fmtScale (f : Word) : Nat := bitsOf f.toNat 9 8
def fmtDrain (f : Word) : Nat := bitsOf f.toNat 13 10
def fmtSparsity (f : Word) : Nat := bitsOf f.toNat 15 14
def fmtRot (f : Word) : Bool := f.getLsbD 16

/-- A legal value of `fmt`. That codes 6 and 7 appear only with scale mode 1 and family W only with scale mode 0 is taken of the fields afmt
and bfmt: R42 names no field, and its words could bind the drain field too; the model's choice (log 72). -/
def fmtLegal (f : Word) : Bool :=
  let mx (c : Nat) : Bool := c == 6 || c == 7
  let fam := familyOf (fmtA f)
  bitsOf f.toNat 31 17 == 0 && fam.isSome && fam == familyOf (fmtB f) && fmtScale f != 3 && fmtSparsity f != 3 && decide (fmtDrain f ≤ 7) &&
    (!(mx (fmtA f) || mx (fmtB f)) || fmtScale f == 1) && (fam != some .W || fmtScale f == 0) && (fmtSparsity f == 0 || fmtB f == 0)

/-! ### Claims (R222) -/

/-- The physical slot or tile behind a team's index. -/
def physOf (m : List (Nat × Nat)) (ix : Nat) : Option Nat := (m.find? fun p => p.1 == ix).map (·.2)

/-- Releases that wait take effect once every accepted operation naming the slot or tile has finished (R222). -/
def State.applyReleases (s : State) (core : CoreId) : State :=
  let busy := s.ops.filter fun o => o.core == core && !o.done
  let c := s.core core
  let slots := (List.range 16).filter fun i => ((c.slots[i]?).any fun x => x.release) && !busy.any fun o => o.slots.contains i
  let accs := (List.range 4).filter fun i => ((c.accs[i]?).any fun x => x.release) && !busy.any fun o => o.acc == some i
  if slots.isEmpty && accs.isEmpty then s
  else
    let s := s.setCore core fun c =>
      { c with slots := Vector.ofFn fun i => if slots.contains i.val then ⟨none, false, none, false⟩ else c.slots[i]
               accs := Vector.ofFn fun i =>
                 if accs.contains i.val then { c.accs[i] with claim := none, release := false, lastCtx := (c.accs[i].claim).map (·.ctx) } else c.accs[i] }
    { s with teams := mapWhere (fun t => t.core == core && t.st != .saved) (fun t =>
        { t with slotMap := t.slotMap.filter fun p => !slots.contains p.2
                 accMap := t.accMap.filter fun p => !accs.contains p.2 }) s.teams }

/-- A legal value of the gang register for a warp of a team of `warps` warps (R28). -/
def gangLegal (g : Word) (warp warps : Nat) : Bool :=
  let members := (List.range 64).filter fun k => gangHas g k
  g == 0#32 || (bitsOf g.toNat 31 11 == 0 && bitsOf g.toNat 10 8 == warp / 8 && decide (2 ≤ members.length) && decide (members.length ≤ 6) &&
    members.contains warp && members.all fun k => decide (k < warps))

/-- `gang` (R221). -/
def execGang (x : Reg) (s : State) : Result :=
  .next (s.checked (.gang x) fun s =>
    let g := s.w.readS x
    if gangLegal g s.w.id.warp (((s.team).map (·.warps)).getD 0) then s.finish fun w => { w with gang := g } else s.raiseCode 0x0F)

/-- What `tclaim` and `trel` name: a slot or an accumulator tile. -/
def Team.claims (t : Team) (acc : Bool) : List (Nat × Nat) := if acc then t.accMap else t.slotMap

/-- A newly claimed accumulator keeps its contents only within its context (R222). -/
def Accumulator.claimBy (a : Accumulator) (t : TeamId) : Accumulator :=
  { a with claim := some t, release := false
           data := if a.lastCtx == some t.ctx then a.data else Vector.replicate 128 (Vector.replicate 128 0)
           logged := if a.lastCtx == some t.ctx then a.logged else none }

/-- An undo entry of an accumulator stays its context's when another context's team claims the tile (R334). -/
def State.keepAccLog (s : State) (a : Accumulator) (ctx : Nat) : State :=
  match a.lastCtx, a.logged with
  | some old, some core => if old = ctx then s else s.keepLog old [(core, 65536)]
  | _, _ => s

/-- `tclaim` (R222): the lowest free physical slot or tile behind the lowest index that the team does not hold. -/
def State.claim (s : State) (acc : Bool) (x : Reg) : State :=
  match s.team with
  | none => s
  | some t =>
    let c := s.core t.core
    let n := if acc then 4 else 16
    let free := leastBelow n fun i => if acc then ((c.accs[i]?).any fun a => a.claim.isNone) else ((c.slots[i]?).any fun a => a.claim.isNone)
    match free, leastBelow n fun i => (physOf (t.claims acc) i).isNone with
    | some p, some ix =>
      let s := match (if acc then c.accs[p]? else none) with | some a => s.keepAccLog a t.id.ctx | none => s
      let s := s.setCore t.core fun c =>
        if acc then { c with accs := Vector.ofFn fun i => if i.val = p then c.accs[i].claimBy t.id else c.accs[i] }
        else { c with slots := Vector.ofFn fun i => if i.val = p then ⟨some t.id, false, none, false⟩ else c.slots[i] }
      let s := s.setTeam t.id fun t =>
        if acc then { t with accMap := t.accMap ++ [(ix, p)] } else { t with slotMap := t.slotMap ++ [(ix, p)] }
      s.finish fun w => w.writeS x (BitVec.ofNat 32 ix)
    | _, _ => s.finish fun w => w.writeS x 0xFFFFFFFF#32

/-- `tclaim` (R222). -/
def execTclaim (k : BitVec 1) (x : Reg) (s : State) : Result := .next (s.checked (.tclaim k x) fun s => s.claim (k == 1) x)

/-- `trel` (R222): an index not claimed, or pending release, raises 0x1A. -/
def State.release (s : State) (acc : Bool) (ix : Nat) : State :=
  match s.team with
  | none => s
  | some t =>
    match physOf (t.claims acc) ix with
    | none => s.raiseCode 0x1A
    | some p =>
      let c := s.core t.core
      let pending := if acc then ((c.accs[p]?).any fun a => a.release) else ((c.slots[p]?).any fun a => a.release)
      if pending then s.raiseCode 0x1A
      else
        let s := s.setCore t.core fun c =>
          if acc then { c with accs := Vector.ofFn fun i => if i.val = p then { c.accs[i] with release := true } else c.accs[i] }
          else { c with slots := Vector.ofFn fun i => if i.val = p then { c.slots[i] with release := true } else c.slots[i] }
        (s.applyReleases t.core).advance

/-- `trel` (R222). -/
def execTrel (k : BitVec 1) (x : Reg) (s : State) : Result :=
  .next (s.checked (.trel k x) fun s => s.release (k == 1) (s.w.readS x).toNat)

/-! ### Acceptance (R214) -/

/-- Operations of a core's matrix queue. -/
def State.queued (s : State) (core : CoreId) : Nat := (s.ops.filter fun o => o.core == core && !o.done).length

/-- A core's matrix queue has 128 entries. -/
def State.queueFull (s : State) : Bool := decide (128 ≤ s.queued s.w.core)

/-- An operation enters the queue and is open for its warp (R214, R215); it owns the lines that it will write (R286). -/
def State.accept (s : State) (w : Warp) (opcode : Nat) (fmt : Word) (work : MatrixWork) (reads lines : List Nat) : State :=
  let o : MatrixOp := ⟨s.nextId, w.id.ctx, w.core, w.id, opcode, fmt, work, false, false, false, lines, reads, s.clock⟩
  let s := (s.ownLines w.core w.id.ctx lines).setWarp w.id fun w => { w with openOps := w.openOps ++ [o.id] }
  { s with nextId := s.nextId + 1, ops := s.ops ++ [o] }

/-- The fetcher of a core, for operations of a context. -/
def fetcherOf (core : CoreId) (ctx : Nat) : Engine := ⟨.fetcher core, ctx, false⟩

/-- Byte addresses of a tile and of its scales (R46). -/
def sourceAddrs (mode : Nat) (r : TileRecord) (row col : Nat) (scale : Option TileRecord) : List Nat :=
  r.addresses row col ++ (match scale with | none => [] | some sc => if mode = 2 then [sc.base] else sc.addresses row col)

/-- Bytes that a tile occupies in slots (R223). -/
def tileBytes (r : TileRecord) : Nat := 2 ^ r.rows * 2 ^ r.cols * elemBytes r.format

/-- The checks of `tfetch` at acceptance, in order (R223): physical slots, record, scale record. -/
def State.tfetchCheck (s : State) (t : Team) (ix handle : Nat) (f : Word) : Except Code (List Nat × TileRecord × Option TileRecord) :=
  match physOf t.slotMap ix with
  | none => .error 0x1A
  | some p =>
    match s.fetchRecord t.core t.id.ctx handle with
    | .error c => .error c
    | .ok r =>
      if r.format != fmtA f && r.format != fmtB f then .error 0x11
      else
        match s.useScale t.core t.id.ctx (fmtScale f) r with
        | .error c => .error c
        | .ok sc =>
          let two := decide (8192 < tileBytes r)
          if 16384 < tileBytes r || (two && ix % 2 == 1) then .error 0x11
          else if !two then .ok ([p], r, sc)
          else
            match physOf t.slotMap (ix + 1) with
            | none => .error 0x1A
            | some q => .ok ([p, q], r, sc)

/-- Byte addresses of an operand given by handle. -/
def MatrixSource.addrs (mode : Nat) : MatrixSource → List Nat
  | .slot _ => []
  | .handle r row col sc => sourceAddrs mode r row col sc

/-- Byte addresses that an operation reads. -/
def MatrixWork.reads (mode : Nat) : MatrixWork → List Nat
  | .tfetch _ r row col sc => sourceAddrs mode r row col sc
  | .multiply _ _ a bs m =>
    a.addrs mode ++ (bs.flatMap fun b => b.2.2.addrs mode) ++ (match m with | none => [] | some q => q.1.addresses q.2.1 q.2.2)
  | _ => []

/-- Byte addresses that an operation writes. -/
def MatrixWork.writes : MatrixWork → List Nat
  | .drainmx _ r row col sc => r.addresses row col ++ (match sc with | none => [] | some q => q.1.addresses q.2.1 q.2.2)
  | _ => []

/-- `tfetch` (R223). -/
def execTfetch (x y : Reg) (s : State) : Result :=
  .next (s.checked (.tfetch x y) fun s =>
    match s.team with
    | none => s
    | some t =>
      if s.queueFull then s.holdFor .queueFull
      else
        let f := s.w.frag.fmt
        let h := (s.w.readS y).toNat
        let handles :=
          if (physOf t.slotMap (s.w.readS x).toNat).isNone then [] else if fmtScale f = 0 then [h] else s.withScale t.core t.id.ctx h
        match s.tfetchCheck t (s.w.readS x).toNat h f with
        | .error c => (s.raiseRecord t.id.ctx c handles).fetchReads t.core t.id.ctx handles
        | .ok (slots, r, sc) =>
          let row := (s.w.readS (y + 1)).toNat
          let col := (s.w.readS (y + 2)).toNat
          let reads := s.engineLines (fetcherOf s.w.core t.id.ctx) .engineRead (sourceAddrs (fmtScale f) r row col sc)
          ((s.fetchReads t.core t.id.ctx handles).accept s.w 3 f (.tfetch slots r row col sc) reads []).advance)

/-- An accumulator index that the team has claimed. -/
def State.accOf (s : State) (x : Reg) : Option Nat := s.team.bind fun t => physOf t.accMap (s.w.readS x).toNat

/-- `accz` (R228). -/
def execAccz (x : Reg) (s : State) : Result :=
  .next (s.checked (.accz x) fun s =>
    if s.queueFull then s.holdFor .queueFull
    else
      match s.accOf x with
      | none => s.raiseCode 0x1A
      | some a => (s.accept s.w 7 s.w.frag.fmt (.accz a) [] []).advance)

/-- `drainv` (R230): the four registers are leased from issue. -/
def execDrainv (x y z : Reg) (s : State) : Result :=
  .next (s.checked (.drainv x y z) fun s =>
    if s.queueFull then s.holdFor .queueFull
    else
      match s.accOf x with
      | none => s.raiseCode 0x1A
      | some a =>
        if s.leased (.drainv x y z) then s.raiseCode 0x06
        else
          let first := s.w.blockReg y
          let lease := (List.range 4).map fun k => (first + k, s.nextId)
          ((s.accept s.w 9 s.w.frag.fmt (.drainv a ((s.w.readS z).toNat % 128) first) [] []).setW fun w =>
            { w with leases := w.leases ++ lease }).advance)

/-- Block size of a rotation code (R89). -/
def rotBlock (code : Nat) : Nat := match code with | 1 => 16 | 2 => 64 | _ => 256

/-- The checks of `drainmx` on its records, in order (R229, R43, R52, R53). -/
def State.drainCheck (s : State) (core : CoreId) (ctx handle sHandle : Nat) (f : Word) : Except Code (TileRecord × Option TileRecord) :=
  match s.fetchRecord core ctx handle with
  | .error c => .error c
  | .ok r =>
    let d := fmtDrain f
    let rotates := fmtRot f && r.rot != 0
    if r.format != d || (rotates && (r.rot == 3 || r.dim 0 % rotBlock r.rot != 0)) then .error 0x11
    else if sHandle = 0 then (if d == 6 || d == 7 || !(r.rows == 7 && r.cols == 7) then .error 0x11 else .ok (r, none))
    else if 2 ≤ d && d ≤ 5 then .error 0x11
    else
      match s.fetchRecord core ctx sHandle with
      | .error c => .error c
      | .ok sc =>
        if sc.format != 8 || sc.packing != 1 || !(r.rows == 7 && r.cols == 7) || !(sc.rows == 7 && sc.cols == 2) then .error 0x11
        else .ok (r, some sc)

/-- `drainmx` (R229). -/
def execDrainmx (x y z : Reg) (s : State) : Result :=
  .next (s.checked (.drainmx x y z) fun s =>
    if s.queueFull then s.holdFor .queueFull
    else
      match s.accOf x with
      | none => s.raiseCode 0x1A
      | some a =>
        let f := s.w.frag.fmt
        let n (r : Reg) : Nat := (s.w.readS r).toNat
        match s.drainCheck s.w.core s.w.id.ctx (n y) (n z) f with
        | .error c => (s.raiseRecord s.w.id.ctx c [n y, n z]).fetchReads s.w.core s.w.id.ctx [n y, n z]
        | .ok (r, sc) =>
          let scale := sc.map fun q => (q, n (z + 1), n (z + 2))
          let addrs := r.addresses (n (y + 1)) (n (y + 2)) ++ (match scale with | none => [] | some q => q.1.addresses q.2.1 q.2.2)
          let lines := s.engineLines (fetcherOf s.w.core s.w.id.ctx) .engineWrite addrs
          ((s.fetchReads s.w.core s.w.id.ctx [n y, n z]).accept s.w 8 f (.drainmx a r (n (y + 1)) (n (y + 2)) scale) [] lines).advance)

/-- `tcommit` (R215): the open operations become the warp's next tile batch. -/
def execTcommit (s : State) : Result :=
  .next (s.checked .tcommit fun s =>
    if 15 ≤ s.w.tileBatches.length then s.holdFor .batches
    else s.finish fun w => { w with tileBatches := w.tileBatches ++ [⟨w.openOps⟩], openOps := [] })

/-! ### Joint operations (R28 to R30, R225, R226) -/

/-- The fields of a joint matrix instruction: operation number, A by handle, B by handle, zero first. -/
structure Joint where
  opcode : Nat
  aHandle : Bool
  bHandle : Bool
  zero : Bool
  x : Reg
  y : Reg
  z : Reg
  deriving DecidableEq, Repr

/-- The bands of a gang of g members in ascending warp order (R30): first row and one past the last. -/
def bands (g : Nat) : List (Nat × Nat) :=
  (List.range g).map fun i =>
    let start (k : Nat) : Nat := 8 * (k * (16 / g) + min k (16 % g))
    (start i, start (i + 1))

/-- The physical slots of an operand given by slot: two for a 16-bit format. -/
def slotOperand (m : List (Nat × Nat)) (ix fmt : Nat) : Option (List Nat) :=
  if elemBytes fmt = 2 then
    match physOf m ix, physOf m (ix + 1) with
    | some p, some q => some [p, q]
    | _, _ => none
  else (physOf m ix).map fun p => [p]

/-- What an operand must be: its format, its tile's rows and columns, the shape of its scale tile (R46, R225); exponents of two. -/
structure Role where
  fmt : Nat
  rows : List Nat
  cols : Nat
  scaleRows : Nat
  scaleCols : Nat
  deriving DecidableEq, Repr

/-- A's role. -/
def roleA (f : Word) : Role := ⟨fmtA f, [7], 6, 7, 1⟩

/-- B's role; N × 128 for `mmsp`, either N while the sparsity field is 0. -/
def roleB (f : Word) (sparse : Bool) : Role :=
  ⟨fmtB f, if sparse then (match fmtSparsity f with | 1 => [5] | 2 => [4] | _ => [4, 5]) else [6], 7, 1, 7⟩

/-- The record checks of an operand given by handle (R91, R43, R46, R225). -/
def State.handleOperand (s : State) (core : CoreId) (ctx : Nat) (mode : Nat) (q : Role) (handle row col : Nat) : Except Code MatrixSource :=
  match s.fetchRecord core ctx handle with
  | .error c => .error c
  | .ok r =>
    if r.format != q.fmt then .error 0x11
    else
      match s.useScale core ctx mode r with
      | .error c => .error c
      | .ok sc =>
        let shape := q.rows.contains r.rows && r.cols == q.cols
        let scaleShape := mode != 1 || (match sc with | some x => x.rows == q.scaleRows && x.cols == q.scaleCols | none => false)
        if shape && scaleShape then .ok (.handle r row col sc) else .error 0x11

/-- An operand of a warp: by slot, its claim was checked before; by handle, its record is checked. -/
def State.operand (s : State) (w : Warp) (t : Team) (f : Word) (q : Role) (byHandle : Bool) (r : Reg) : Except Code MatrixSource :=
  let n (r : Reg) : Nat := (w.readS r).toNat
  if byHandle then s.handleOperand t.core t.id.ctx (fmtScale f) q (n r) (n (r + 1)) (n (r + 2))
  else
    match slotOperand t.slotMap (n r) q.fmt with
    | some p => .ok (.slot p)
    | none => .error 0x1A

/-- The metadata of `mmsp` (R225). -/
def State.metadataOperand (s : State) (w : Warp) (core : CoreId) (ctx : Nat) (q : Role) (z : Reg) : Except Code (TileRecord × Nat × Nat) :=
  let n (r : Reg) : Nat := (w.readS r).toNat
  match s.fetchRecord core ctx (n (z + 3)) with
  | .error c => .error c
  | .ok r => if r.format == 8 && r.packing == 1 && q.rows.contains r.rows && r.cols == 7 then .ok (r, n (z + 4), n (z + 5)) else .error 0x11

/-- The checks of a joint operation at acceptance, in order (R225, R226), for the members in ascending warp number; the leader is first. -/
def State.jointWork (s : State) (t : Team) (leader : Warp) (members : List Warp) (j : Joint) : Except Code MatrixWork :=
  let f := leader.frag.fmt
  let sparse := j.opcode == 6
  let bWarps : List (Nat × Nat × Warp) :=
    if j.opcode == 5 then ((bands members.length).zip members).map fun p => (p.1.1, p.1.2, p.2) else [(0, 128, leader)]
  let claimed (w : Warp) (q : Role) (r : Reg) : Bool := (slotOperand t.slotMap (w.readS r).toNat q.fmt).isSome
  match physOf t.accMap (leader.readS j.x).toNat with
  | none => .error 0x1A
  | some acc =>
    if (!j.aHandle && !claimed leader (roleA f) j.y) || (!j.bHandle && bWarps.any fun p => !claimed p.2.2 (roleB f sparse) j.z) then .error 0x1A
    else
      match s.operand leader t f (roleA f) j.aHandle j.y with
      | .error c => .error c
      | .ok a =>
        match sequence (bWarps.map fun p => (s.operand p.2.2 t f (roleB f sparse) j.bHandle j.z).map fun b => (p.1, p.2.1, b)) with
        | .error c => .error c
        | .ok bs =>
          if !sparse then .ok (.multiply acc j.zero a bs none)
          else
            match s.metadataOperand leader t.core t.id.ctx (roleB f true) j.z with
            | .error c => .error c
            | .ok m => if fmtSparsity f = 0 then .error 0x01 else .ok (.multiply acc j.zero a bs (some m))

/-- Lines that an operand reads (R286). -/
def State.sourceLines (s : State) (e : Engine) (mode : Nat) : MatrixSource → List Nat
  | .slot _ => []
  | .handle r row col sc => s.engineLines e .engineRead (sourceAddrs mode r row col sc)

/-- Lines that an operation reads. -/
def State.workLines (s : State) (e : Engine) (mode : Nat) : MatrixWork → List Nat
  | .multiply _ _ a bs m =>
    s.sourceLines e mode a ++ (bs.flatMap fun b => s.sourceLines e mode b.2.2) ++
      (match m with | none => [] | some q => s.engineLines e .engineRead (q.1.addresses q.2.1 q.2.2))
  | _ => []

/-- The handles that the checks of a joint operation read, in order. -/
def State.jointHandles (s : State) (ctx : Nat) (leader : Warp) (members : List Warp) (j : Joint) : List Nat :=
  let f := leader.frag.fmt
  let operand (w : Warp) (r : Reg) : List Nat :=
    let h := (w.readS r).toNat
    if fmtScale f = 0 then [h] else s.withScale leader.core ctx h
  (if j.aHandle then operand leader j.y else []) ++
    (if j.bHandle then (if j.opcode == 5 then members else [leader]).flatMap fun w => operand w j.z else []) ++
    (if j.opcode == 6 then [(leader.readS (j.z + 3)).toNat] else [])

/-- A joint operation of warps that have all arrived (R29, R225): accepted for the leader, and every member continues; or the fault of
the checks in every member. -/
def State.jointOpen (s : State) (team : TeamId) (held : List (Nat × Fin 2)) (j : Joint) : State :=
  let order := sortBy (fun a b => decide (a.1 < b.1)) held
  let warp (a : Nat × Fin 2) : Option Warp := (s.warp? ⟨team.ctx, team.grid, team.team, a.1⟩).map fun w => { w with cur := a.2 }
  let members := order.filterMap warp
  match members.head?, s.team? team with
  | some leader, some t =>
    let handles := s.jointHandles team.ctx leader members j
    match s.jointWork t leader members j with
    | .error c => (s.raiseTogether team held c (s.recordVa team.ctx c handles)).fetchReads leader.core team.ctx handles
    | .ok work =>
      let f := leader.frag.fmt
      let reads := s.workLines (fetcherOf leader.core team.ctx) (fmtScale f) work
      let s := (s.fetchReads leader.core team.ctx handles).accept leader j.opcode f work reads []
      order.foldl (fun s a => s.setWarp ⟨team.ctx, team.grid, team.team, a.1⟩ fun w => ({ w with cur := a.2 } : Warp).advance) s
  | _, _ => s

/-- Every member that the latch's gang value names has arrived. -/
def Latch.complete (l : Latch) : Bool :=
  ((List.range 64).filter fun k => gangHas l.gang k).all fun k => l.arrived.any fun a => a.1 == k

/-- A joint instruction issues (R29): alone, or by arriving at the latch of its gang value. -/
def State.jointIssue (s : State) (i : Instr) (j : Joint) : State :=
  let id := s.w.id
  let me := (id.warp, s.w.cur)
  let team := id.teamId
  let mine := s.latches.filter fun l => l.team == team
  if s.queueFull then s.holdFor .queueFull
  else if s.w.gang = 0#32 then s.jointOpen team [me] j
  else
    match mine.find? fun l => l.gang == s.w.gang with
    | some l =>
      if l.arrived.any fun a => a.1 == id.warp then s.holdFor .latch
      else
        let full : Latch := { l with arrived := l.arrived ++ [(id.warp, i, s.w.cur)] }
        let others := s.latches.filter fun x => x != l
        if !full.complete then { s with latches := others ++ [full] }
        else if full.arrived.all fun a => a.2.1 == i then ({ s with latches := others } : State).jointOpen team full.held j
        else s.raiseHeld team [l] [me] 0x0F
    | none =>
      let clash := mine.filter fun l => bitsOf l.gang.toNat 10 8 == bitsOf s.w.gang.toNat 10 8 && (l.gang &&& s.w.gang &&& 0xFF#32) != 0#32
      if clash.isEmpty then { s with latches := s.latches ++ [⟨s.w.core, team, s.w.gang, [(id.warp, i, s.w.cur)]⟩] }
      else s.raiseHeld team clash [me] 0x0F

/-- `mma` (R225). -/
def execMma (h g c : BitVec 1) (x y z : Reg) (s : State) : Result :=
  .next (s.checked (.mma h g c x y z) fun s => s.jointIssue (.mma h g c x y z) ⟨4, h == 1, g == 1, c == 1, x, y, z⟩)

/-- `mmag` (R226). -/
def execMmag (h g c : BitVec 1) (x y z : Reg) (s : State) : Result :=
  .next (s.checked (.mmag h g c x y z) fun s => s.jointIssue (.mmag h g c x y z) ⟨5, h == 1, g == 1, c == 1, x, y, z⟩)

/-- `mmsp` (R49, R225). -/
def execMmsp (h g c : BitVec 1) (x y z : Reg) (s : State) : Result :=
  .next (s.checked (.mmsp h g c x y z) fun s => s.jointIssue (.mmsp h g c x y z) ⟨6, h == 1, g == 1, c == 1, x, y, z⟩)

/-! ### Chunk sums (R44 to R49) -/

/-- The product of two elements, with the flags it sets (R44, R45). -/
def product (fam : Family) (fa fb a b : Nat) : Num × Word :=
  match fam with
  | .L => let p := lg6Mul a b; (p, flagIf p.isNan flagNar)
  | _ =>
    let x := elemValue fa a
    let y := elemValue fb b
    let p := mulNum x y
    (p, flagIf (p.isNan && !x.isNan && !y.isNan) flagInvalid)

/-- The chunk of families L and S (R45): terms are index, A element, B element; `scale` is f of a half. -/
def chunkExact (fam : Family) (fa fb : Nat) (terms : List (Nat × Nat × Nat)) (scale : Nat → Num) : Word × Word :=
  let ps := terms.map fun t => (t.1 / 32, product fam fa fb t.2.1 t.2.2)
  let flags := ps.foldl (fun f p => f ||| p.2.2) 0
  let nan := (ps.any fun p => p.2.1.isNan) || [0, 1].any fun h => (scale h).isNan && ps.any fun p => p.1 == h
  if nan then (nanF32, flags)
  else if (ps.any fun p => p.2.1 == .inf false) && ps.any fun p => p.2.1 == .inf true then (nanF32, flags ||| flagInvalid)
  else
    let sum (h : Nat) : Num := mulNum ((ps.filter fun p => p.1 == h).foldl (fun x p => addNum 0 x p.2.1) (.fin false 0 0)) (scale h)
    let used (h : Nat) : Num := if ps.any fun p => p.1 == h then sum h else .fin false 0 0
    let r := roundF32 0 (addNum 0 (used 0) (used 1))
    (r.1, flags ||| r.2)

/-- One level of the pairwise tree (R47). -/
def pairSums : List Word → List (Word × Word)
  | a :: b :: rest => addF32 0 a b :: pairSums rest
  | _ => []

/-- The pairwise tree (R47). -/
def treeSum : Nat → List Word → Word → Word × Word
  | 0, x, f => (((x.head?).getD 0), f)
  | n + 1, x, f => let r := pairSums x; treeSum n (r.map (·.1)) (r.foldl (fun f p => f ||| p.2) f)

/-- The chunk of family W (R47). -/
def chunkTree (fa fb : Nat) (terms : List (Nat × Nat × Nat)) : Word × Word :=
  let ps := terms.map fun t =>
    let p := product .W fa fb t.2.1 t.2.2
    let r := roundF32 0 p.1
    (r.1, r.2 ||| p.2)
  treeSum 6 (ps.map (·.1)) (ps.foldl (fun f p => f ||| p.2) 0)

/-- A chunk under the fmt of an operation. -/
def chunk (f : Word) (terms : List (Nat × Nat × Nat)) (scale : Nat → Num) : Word × Word :=
  match familyOf (fmtA f) with
  | some .W => chunkTree (fmtA f) (fmtB f) terms
  | some fam => chunkExact fam (fmtA f) (fmtB f) terms scale
  | none => (0, 0)

/-- An entry of a table of codes. -/
def codeAt (t : List (List Nat)) (i j : Nat) : Nat := (((t[i]?).getD [])[j]?).getD 0

/-- The scale of an operand at a place of its scale tile, in the mode of the operation (R46). -/
def Tile.scaleAt (t : Tile) (mode i j : Nat) : Num :=
  match mode with
  | 0 => .fin false 1 0
  | 1 => scaleValue (codeAt t.scales i j)
  | _ => scaleValue (codeAt t.scales 0 0)

/-- Columns of a table of codes. -/
def columns (n : Nat) (t : List (List Nat)) : List (List Nat) := (List.range n).map fun j => t.map fun r => (r[j]?).getD 0

/-- The accumulator after a joint operation (R45 to R49): each element with the flags it sets. -/
def multiplied (f : Word) (zero : Bool) (a : Tile) (bs : List (Nat × Nat × Tile)) (indices : Option (List (List Nat)))
    (acc : Vector (Vector Word 128) 128) : List (List (Word × Word)) :=
  let mode := fmtScale f
  let idx := indices.map fun t => (columns 128 t).map fun c => c.map (· % 64)
  bs.flatMap fun b =>
    let cols := columns 128 b.2.2.codes
    (rangeFrom b.1 (b.2.1 - b.1)).map fun m =>
      let row := (a.codes[m]?).getD []
      (cols.zip (List.range 128)).map fun c =>
        let ks := match idx with | none => List.range 64 | some t => (t[c.2]?).getD []
        let terms := (ks.zip c.1).map fun p => (p.1, (row[p.1]?).getD 0, p.2)
        let r := chunk f terms fun h => mulNum (a.scaleAt mode m h) (b.2.2.scaleAt mode h c.2)
        let old := if zero then 0 else ((acc[m]?).bind fun v => v[c.2]?).getD 0
        let q := addF32 0 old r.1
        (q.1, q.2 ||| r.2)

/-- A table as an accumulator. -/
def accumulatorOf (t : List (List Word)) : Vector (Vector Word 128) 128 :=
  Vector.ofFn fun m => let row := (t[m.val]?).getD []; Vector.ofFn fun n => (row[n.val]?).getD 0

/-! ### Performing queued operations (R214, R219) -/

/-- The operation of a number in a core's queue. -/
def State.op? (s : State) (core op : Nat) : Option MatrixOp := s.ops.find? fun o => o.id == op && o.core.n == core

/-- The operation may begin (R214, R286, R288): no earlier unfinished one of the core names its slots or its accumulator, no engine owns
its lines, no earlier atomic of its warp is pending on them, and it does not wait for a handler. -/
def State.opReady (s : State) (o : MatrixOp) : Bool :=
  let earlier := s.ops.takeWhile fun p => p.id != o.id
  !o.done && !o.faulted &&
    !(earlier.any fun p => p.core == o.core && !p.done && ((p.acc.isSome && p.acc == o.acc) || p.slots.any fun x => o.slots.contains x)) &&
    !s.engineBlocked o.id o.core o.reads o.lines && !s.engineAwaits o.id o.warp (o.reads ++ o.lines)

/-- The earlier stores of the warp to the operation's lines are performed (R288). -/
def State.opBegin (s : State) (o : MatrixOp) : State := s.engineDrain o.id o.core o.warp (o.reads ++ o.lines)

/-- The operation has finished: its flags reach the warp (R61, R225), stores that waited for it to write its lines land (R286), and releases
that waited for it take effect. -/
def State.opDone (s : State) (o : MatrixOp) (flags : Word) : State :=
  let s := { s with ops := mapWhere (fun p => p.id == o.id) (fun p => { p with done := true }) s.ops }
  ((s.setWarp o.warp fun w => w.setFlags flags).landAcked).applyReleases o.core

/-- The operation met a fault (R219): its accumulator stands as before, and the fault goes to its warp. -/
def State.opFault (s : State) (o : MatrixOp) (c : Code) (va : Nat) (write : Bool) : State :=
  let back := s.w.id
  let s := { s with ops := mapWhere (fun p => p.id == o.id) (fun p => { p with faulted := true }) s.ops }
  let s := s.setWarp o.warp fun w => { w with opFaults := w.opFaults ++ [⟨o.id, o.opcode, c, va, write⟩] }
  match s.warp? o.warp with
  | none => s
  | some _ => (((s.focus o.warp).deliverOpFault).focus back).walkMet o.ctx c va

/-- The scales that an operation's mode takes with a tile (R46, R223). -/
def State.fetchScales (s : State) (e : Engine) (mode row col : Nat) (sc : Option TileRecord) : Except (Code × Nat) (Nat × Nat × List (List Nat)) :=
  match sc with
  | none => .ok (0, 0, [])
  | some x =>
    if mode = 2 then (s.engineByte e x.base).map fun b => (0, 0, [[b.toNat]])
    else (s.tileRead e x row col).map fun t => (x.rows, x.cols, t)

/-- A tile fetched through its record (R223). -/
def State.fetchTile (s : State) (e : Engine) (mode : Nat) (r : TileRecord) (row col : Nat) (sc : Option TileRecord) : Except (Code × Nat) Tile :=
  match s.tileRead e r row col with
  | .error x => .error x
  | .ok codes =>
    match s.fetchScales e mode row col sc with
    | .error x => .error x
    | .ok q => .ok ⟨r.format, r.rows, r.cols, codes, mode, q.1, q.2.1, q.2.2⟩

/-- An operand as the operation reads it; a slot must hold a tile that suits its role (R225). -/
def State.readSource (s : State) (o : MatrixOp) (q : Role) : MatrixSource → Except (Code × Nat) Tile
  | .handle r row col sc => s.fetchTile (fetcherOf o.core o.ctx) (fmtScale o.fmt) r row col sc
  | .slot phys =>
    let c := s.core o.core
    let held := ((phys.head?).bind fun p => (c.slots[p]?).bind fun x => x.tile)
    let second := (phys.drop 1).all fun p => (c.slots[p]?).any fun x => x.second
    let mode := fmtScale o.fmt
    match held with
    | none => .error (0x11, 0)
    | some t =>
      if t.format == q.fmt && q.rows.contains t.rows && t.cols == q.cols && second &&
          (mode == 0 || (t.scaleMode == mode && (mode == 2 || (t.scaleRows == q.scaleRows && t.scaleCols == q.scaleCols)))) then .ok t
      else .error (0x11, 0)

/-- TILE_FETCH_PERFORM (R223): the tile and its scales enter the slots. -/
def State.tileFetchPerform (s : State) (core op : Nat) : State :=
  match s.op? core op with
  | none => s
  | some o =>
    match o.work with
    | .tfetch slots r row col sc =>
      if !s.opReady o then s
      else
        let s := s.opBegin o
        let e := fetcherOf o.core o.ctx
        let s' := s.engineTouch e (sourceAddrs (fmtScale o.fmt) r row col sc)
        match s.fetchTile e (fmtScale o.fmt) r row col sc with
        | .error (c, va) => s'.opFault o c va false
        | .ok t =>
          let put (i : Nat) (x : OperandSlot) : OperandSlot :=
            if slots.head? == some i then { x with tile := some t, second := false }
            else if slots.contains i then { x with tile := none, second := true } else x
          let s' := s'.setCore o.core fun c => { c with slots := Vector.ofFn fun i => put i.val c.slots[i] }
          s'.opDone o 0
    | _ => s

/-- TILE_FETCH_PERFORM (R223). -/
def execTileFetchPerform (core op : Nat) (s : State) : Result := .next (s.tileFetchPerform core op)

/-- All tiles that a joint operation reads, in order: A, the bands of B, the metadata. -/
def State.readOperands (s : State) (o : MatrixOp) (a : MatrixSource) (bs : List (Nat × Nat × MatrixSource))
    (m : Option (TileRecord × Nat × Nat)) : Except (Code × Nat) (Tile × List (Nat × Nat × Tile) × Option (List (List Nat))) :=
  match s.readSource o (roleA o.fmt) a with
  | .error x => .error x
  | .ok ta =>
    match sequence (bs.map fun b => (s.readSource o (roleB o.fmt m.isSome) b.2.2).map fun t => (b.1, b.2.1, t)) with
    | .error x => .error x
    | .ok tb =>
      match m with
      | none => .ok (ta, tb, none)
      | some (r, row, col) => (s.tileRead (fetcherOf o.core o.ctx) r row col).map fun t => (ta, tb, some t)

/-- Set the data of an accumulator tile, which has an entry in the undo region from then on (R334). -/
def State.setAcc (s : State) (core : CoreId) (acc : Nat) (d : Vector (Vector Word 128) 128) : State :=
  s.setCore core fun c =>
    { c with accs := Vector.ofFn fun i => if i.val = acc then { c.accs[i] with data := d, logged := c.accs[i].logged.or (some core) } else c.accs[i] }

/-- The data of an accumulator tile. -/
def State.accData (s : State) (core : CoreId) (acc : Nat) : Vector (Vector Word 128) 128 :=
  (((s.core core).accs[acc]?).map (·.data)).getD (Vector.replicate 128 (Vector.replicate 128 0))

/-- The flags that `mma`, `mmag` and `mmsp` can set (R60). -/
def multiplyFlags : Word := flagInvalid ||| flagOverflow ||| flagNar

/-- MATRIX_OPERATION_PERFORM (R225): the chunk is added to every element of the accumulator once. -/
def State.multiplyPerform (s : State) (core op : Nat) : State :=
  match s.op? core op with
  | none => s
  | some o =>
    match o.work with
    | .multiply acc zero a bs m =>
      if !s.opReady o then s
      else
        let s := s.opBegin o
        let e := fetcherOf o.core o.ctx
        let mode := fmtScale o.fmt
        let addrs (x : MatrixSource) : List Nat := match x with | .handle r row col sc => sourceAddrs mode r row col sc | _ => []
        let s' := s.engineTouch e (addrs a ++ (bs.flatMap fun b => addrs b.2.2) ++ (match m with | none => [] | some q => q.1.addresses q.2.1 q.2.2))
        match s.readOperands o a bs m with
        | .error (c, va) => s'.opFault o c va false
        | .ok (ta, tb, idx) =>
          let r := multiplied o.fmt zero ta tb idx (s.accData o.core acc)
          let flags := r.foldl (fun f row => row.foldl (fun f p => f ||| p.2) f) 0
          (s'.setAcc o.core acc (accumulatorOf (r.map fun row => row.map (·.1)))).opDone o (flags &&& multiplyFlags)
    | _ => s

/-- MATRIX_OPERATION_PERFORM (R225). -/
def execMatrixOperationPerform (core op : Nat) (s : State) : Result := .next (s.multiplyPerform core op)

/-- ACCZ_PERFORM (R228). -/
def State.acczPerform (s : State) (core op : Nat) : State :=
  match s.op? core op with
  | none => s
  | some o =>
    match o.work with
    | .accz acc =>
      if !s.opReady o then s else (s.setAcc o.core acc (Vector.replicate 128 (Vector.replicate 128 0))).opDone o 0
    | _ => s

/-- ACCZ_PERFORM (R228). -/
def execAcczPerform (core op : Nat) (s : State) : Result := .next (s.acczPerform core op)

/-- DRAINV_PERFORM (R230): the row's 128 words enter the four leased registers, in all 32 lanes. -/
def State.drainvPerform (s : State) (core op : Nat) : State :=
  match s.op? core op with
  | none => s
  | some o =>
    match o.work with
    | .drainv acc row first =>
      if !s.opReady o then s
      else
        let data := s.accData o.core acc
        let word (j t : Nat) : Word := ((data[row]?).bind fun v => v[32 * j + t]?).getD 0
        (s.setWarp o.warp fun w =>
          (List.range 4).foldl (fun w j => w.writeBlock (Fin.ofNat 256 (first + j)) 0xFFFFFFFF#32 (Vector.ofFn fun t => word j t.val)) w).opDone o 0
    | _ => s

/-- DRAINV_PERFORM (R230). -/
def execDrainvPerform (core op : Nat) (s : State) : Result := .next (s.drainvPerform core op)

/-! ### Drains (R51 to R56, R229) -/

/-- Consecutive blocks of a list. -/
def blocks {α : Type} (n : Nat) : Nat → List α → List (List α)
  | 0, _ => []
  | fuel + 1, x => if x.isEmpty then [] else x.take n :: blocks n fuel (x.drop n)

/-- A row rotated in blocks of b (R51, R52); `linear` is the linear index of its first element in the destination tensor. -/
def rotateRow (b : Nat) (seed : Word) (linear : Nat) (row : List Word) : List Word × Word :=
  let bs := blocks b row.length row
  let r := (bs.zip (List.range bs.length)).map fun p => rotate p.1 b seed (linear / b + p.2)
  (r.flatMap (·.1), rotateFlags (r.foldl (fun f p => f ||| p.2) 0))

/-- A row of values converted to an element format (R53): element codes, scale bytes, flags. -/
def drainRow (fmt : Nat) (scaled : Bool) (row : List Word) : List Nat × List Nat × Word :=
  if fmt = 5 then (row.map (·.toNat), [], 0)
  else if scaled then
    let r := (blocks 32 row.length row).map fun b => scaledBlock fmt (b.map numF32)
    (r.flatMap fun q => q.2.1, r.map (·.1), r.foldl (fun f q => f ||| q.2.2) 0)
  else
    let r := row.map fun x => plainElement fmt (numF32 x)
    (r.map (·.1), [], r.foldl (fun f q => f ||| q.2) 0)

/-- The flags of drains and converting copies (R60). -/
def convertFlags : Word := flagInvalid ||| flagOverflow ||| flagSat ||| flagNar

/-- DRAINMX_PERFORM (R229). -/
def State.drainmxPerform (s : State) (core op : Nat) : State :=
  match s.op? core op with
  | none => s
  | some o =>
    match o.work with
    | .drainmx acc r row col scale =>
      if !s.opReady o then s
      else
        let s := s.opBegin o
        let e := fetcherOf o.core o.ctx
        let data := s.accData o.core acc
        let rotates := fmtRot o.fmt && r.rot != 0
        let b := rotBlock r.rot
        let rows := (List.range 128).map fun i =>
          let x := ((data[i]?).map (·.toList)).getD []
          let q := if rotates then rotateRow b (BitVec.ofNat 32 r.seed) ((row * 128 + i) * r.dim 0 + col * 128) x else (x, 0)
          let d := drainRow (fmtDrain o.fmt) scale.isSome q.1
          (d.1, d.2.1, q.2 ||| d.2.2)
        let w := r.writes row col (rows.map (·.1)) ++
          (match scale with | none => [] | some q => q.1.writes q.2.1 q.2.2 (rows.map fun x => x.2.1))
        match s.engineWriteFault e (w.map (·.1)) with
        | some (c, va) => s.opFault o c va true
        | none =>
          let flags := rows.foldl (fun f x => f ||| x.2.2) 0
          -- a line that did not translate at acceptance is owned only now (R286)
          let homes := s.engineLines e .engineWrite (w.map (·.1))
          let s := s.ownLines o.core o.ctx homes
          ((s.engineWrite e (some o.core) w).opDone o (flags &&& convertFlags)).wroteFar o.warp homes
    | _ => s

/-- DRAINMX_PERFORM (R229). -/
def execDrainmxPerform (core op : Nat) (s : State) : Result := .next (s.drainmxPerform core op)

/-! ### Tile batches (R215) -/

/-- The operation has finished, or has been discarded. -/
def State.opOver (s : State) (id : Nat) : Bool := !(s.ops.any fun o => o.id == id && !o.done)

/-- TILE_BATCH_COMPLETE (R215): the warp's oldest tile batch completes once all its operations have finished; leases end (R218). Those of a
saved team stand in its record (R338). -/
def State.tileBatchComplete (s : State) (id : WarpId) : State :=
  match (s.warp? id).bind fun w => w.tileBatches.head? with
  | none => s
  | some b =>
    if !(b.ops.all s.opOver) || s.claimSaved (some id.teamId) then s
    else
      let s := s.setWarp id fun w => { w with tileBatches := w.tileBatches.drop 1, leases := w.leases.filter fun l => !b.ops.contains l.2 }
      { s with ops := s.ops.filter fun o => !b.ops.contains o.id }

/-- TILE_BATCH_COMPLETE (R215). -/
def execTileBatchComplete (w : WarpId) (s : State) : Result := .next (s.tileBatchComplete w)

end Sys2Proof.Machine
end

