-- ==== Sys2Proof/Machine/Copies.lean ====
section
/-!
DEFINITION. The meanings of the copies and prefetches (R216, R217, R232 to R239): acceptance, the events in which a copy is performed
and completes, and the arrival of a copy at a barrier (R233, R242).
-/

namespace Sys2Proof.Machine

/-! ### Barriers (R242, R244) -/

/-- A barrier of the team that has been initialised. -/
def Team.barrier? (t : Team) (n : Nat) : Option Barrier := (t.barriers[n]?).bind fun b => if b.count = 0 then none else some b

/-- One arrival (R244). -/
def Barrier.arrive (b : Barrier) : Barrier :=
  if b.arrivals + 1 = b.count then { b with phase := b.phase + 1, arrivals := 0 } else { b with arrivals := b.arrivals + 1 }

/-- Set a barrier of the team. -/
def Team.setBarrier (t : Team) (n : Nat) (b : Barrier) : Team := { t with barriers := t.barriers.set n b }

/-! ### Acceptance (R216, R232 to R237) -/

/-- Bytes of a record's tile in scratchpad (R232). -/
def TileRecord.spadBytes (r : TileRecord) : Nat := 2 ^ r.rows * 2 ^ r.cols * elemBytes r.format

/-- MX elements, which have a meaning only with their scales (R35, R53). -/
def mxFormat (f : Nat) : Bool := f == 6 || f == 7

/-- A record whose elements are scaled in a conversion: MX, and LG6 with a scale record (R235). -/
def TileRecord.scaled (r : TileRecord) : Bool := mxFormat r.format || (r.format == 0 && r.scale != 0)

/-- The scale record that a converting copy uses for a side (R43, R235). -/
def State.copyScale (s : State) (ctx : Nat) (r : TileRecord) : Except Code (Option TileRecord) :=
  if !r.scaled then .ok none
  else
    match s.useRecord ctx r.scale with
    | .error c => .error c
    | .ok sc => if sc.format == 8 && sc.packing == 1 then .ok (some sc) else .error 0x11

/-- A conversion into the record rotates (R52). -/
def TileRecord.rotates (r : TileRecord) : Bool := r.rot != 0 && (r.format == 0 || r.format == 1 || r.format == 2 || mxFormat r.format)

/-- The two sides of a `.g2g` copy after checks 2 and 3 of R234. -/
def State.copyTiles (s : State) (ctx hs hd : Nat) : Except Code (TileRecord × Option TileRecord × TileRecord × Option TileRecord) :=
  match s.useRecord ctx hs with
  | .error c => .error c
  | .ok a =>
    match s.useRecord ctx hd with
    | .error c => .error c
    | .ok b =>
      if a.format == b.format then (if a.rows == b.rows && a.cols == b.cols then .ok (a, none, b, none) else .error 0x11)
      else
        match s.copyScale ctx a with
        | .error c => .error c
        | .ok sa =>
          match s.copyScale ctx b with
          | .error c => .error c
          | .ok sb =>
            if b.rotates && b.dim 0 % rotBlock b.rot != 0 then .error 0x11
            else if a.rows != b.rows || a.cols != b.cols || a.format == 8 || b.format == 8 then .error 0x11
            else .ok (a, sa, b, sb)

/-- The sides of a `cpy`, or the first check of R234 that fails. -/
def State.copySides (s : State) (d : BitVec 2) (y z : Reg) : Except Code (CopySide × CopySide) :=
  let n (r : Reg) : Nat := (s.w.readS r).toNat
  let ctx := s.w.id.ctx
  let limit := ((s.team).map (·.spadsz)).getD 0
  match d with
  | 0 =>
    match s.useRecord ctx (n y) with
    | .error c => .error c
    | .ok r =>
      if n z % 16 != 0 then .error 0x07
      else if limit < n z + r.spadBytes then .error 0x0B
      else .ok (.tile r (n (y + 1)) (n (y + 2)) none, .spad (n z) r.spadBytes)
  | 1 =>
    match s.useRecord ctx (n z) with
    | .error c => .error c
    | .ok r =>
      if n y % 16 != 0 then .error 0x07
      else if limit < n y + r.spadBytes then .error 0x0B
      else .ok (.spad (n y) r.spadBytes, .tile r (n (z + 1)) (n (z + 2)) none)
  | 2 =>
    match s.copyTiles ctx (n y) (n z) with
    | .error c => .error c
    | .ok (a, sa, b, sb) => .ok (.tile a (n (y + 1)) (n (y + 2)) sa, .tile b (n (z + 1)) (n (z + 2)) sb)
  | _ =>
    let len := n (y + 1)
    if n y % 16 != 0 || n z % 16 != 0 || len % 16 != 0 || len < 16 || 65536 < len then .error 0x07
    else if limit < n y + len || limit < n z + len then .error 0x0B
    else .ok (.spad (n y) len, .spad (n z) len)

/-- The sides of a `cpyg`, or the first check of R237 that fails, with the rows whose addresses fail it. -/
def State.gatherSides (s : State) (d : BitVec 2) (y z : Reg) : Except (Code × List LaneAddr) (CopySide × CopySide) :=
  let off := (s.w.readS z).toNat
  let len := (s.w.readS (z + 1)).toNat
  let rows := s.globalAddrs y 0
  let limit := ((s.team).map (·.spadsz)).getD 0
  if off % 16 != 0 || len % 16 != 0 || len < 16 || 4096 < len then .error (0x07, [])
  else if rows.any fun p => p.2 % 16 != 0 then .error (0x07, rows.filter fun p => p.2 % 16 != 0)
  else if limit < off + 32 * len then .error (0x0B, [])
  else if rows.any fun p => decide (2 ^ 57 ≤ p.2) then .error (0x09, rows.filter fun p => decide (2 ^ 57 ≤ p.2))
  else if d = 0 then .ok (.rows rows len, .spad off (32 * len)) else .ok (.spad off (32 * len), .rows rows len)

/-- Indices in the scale tensor of the blocks of 32 that a tile covers (R235). -/
def scaleCells (r : TileRecord) (row col : Nat) : List (Nat × Nat) :=
  ((r.cells row col).flatten.map fun p => (p.1 / 32, p.2)).eraseDups

/-- Global byte addresses of a side. -/
def CopySide.addresses : CopySide → List Nat
  | .tile r row col sc =>
    r.addresses row col ++ (match sc with
      | none => []
      | some x => (scaleCells r row col).flatMap fun p => if x.inside p.1 p.2 then (x.bits p.1 p.2).map (·.1) else [])
  | .spad _ _ => []
  | .rows addrs len => addrs.flatMap fun p => (rangeFrom p.2 len).map (· % 2 ^ 64)

/-- The logical engines of a partition that its copy-engine table holds in service (R359, R361). -/
def State.engines (s : State) (part : Nat) : List Nat :=
  match s.part? part with
  | none => [0]
  | some p =>
    let l := (List.range (4 * p.groups.length)).filter fun n => !(p.engineTable.any fun e => e.logical == n && !e.valid)
    if l.isEmpty then [0] else l

/-- The engine with the fewest accepted copies, the lowest number on a tie (R361). -/
def State.pickEngine (s : State) (part : Nat) : Nat :=
  let load (n : Nat) : Nat := (s.copies.filter fun c => c.core.part == part && c.engine == n).length
  ((s.engines part).foldl (fun (best : Option Nat) n =>
    match best with | none => some n | some b => if load n < load b then some n else some b) none).getD 0

/-- An engine of the pool, for the copies of a context. -/
def engineOf (part n ctx : Nat) : Engine := ⟨.engine part n, ctx, false⟩

/-- Range-tracker entries in use on a core (R235). -/
def State.rangesUsed (s : State) (core : CoreId) : Nat := (s.copies.filter fun c => c.core == core && c.dst.spadRange.isSome).length

/-- A copy that passed its checks is accepted (R216, R217, R235), or the instruction is not ready (R216, R234 check 6). R216 does not say whether a
copy that fails a check of R234 or R237 faults while the warp has 32 copies accepted: here the checks come first, and only a copy that passed them
waits; the model's choice (log 73). `handles` are those of the records that the checks read. -/
def State.acceptCopy (s : State) (bar : BitVec 1) (x : Reg) (src dst : CopySide) (handles : List Nat) : State :=
  let id := s.w.id
  if 32 ≤ (s.copies.filter fun c => c.warp == id).length then s.holdFor .copies
  else if dst.spadRange.isSome && decide (16 ≤ s.rangesUsed s.w.core) then s.holdFor .rangeTracker
  else
    let n := s.pickEngine s.w.core.part
    let e := engineOf s.w.core.part n id.ctx
    let lines := s.engineLines e .engineWrite dst.addresses
    let reads := s.engineLines e .engineRead src.addresses
    let token := if x = 0#7 then none else some (s.w.scalarIx x).val
    let barrier := if bar = 0 then none else some ((s.w.readS (x + 1)).toNat % 1024)
    let c : Copy := ⟨s.nextId, id, s.w.core, n, token, barrier, src, dst, false, false, 0, 0, lines, reads, s.clock⟩
    let s := (s.recordReads id.ctx handles).ownLines s.w.core id.ctx lines
    ({ s with nextId := s.nextId + 1, copies := s.copies ++ [c] } : State).finish fun w =>
      { w with openCopies := w.openCopies ++ [c.id]
               tokens := match token with | none => w.tokens | some k => w.tokens ++ [(k, c.id)] }

/-- The handles that the checks of a `cpy` read, in order. -/
def State.copyHandles (s : State) (d : BitVec 2) (y z : Reg) : List Nat :=
  let n (r : Reg) : Nat := (s.w.readS r).toNat
  let scale (r : TileRecord) : List Nat := if r.scaled then [r.scale] else []
  match d with
  | 0 => [n y]
  | 1 => [n z]
  | 2 =>
    match s.useRecord s.w.id.ctx (n y), s.useRecord s.w.id.ctx (n z) with
    | .ok a, .ok b => [n y, n z] ++ (if a.format == b.format then [] else scale a ++ scale b)
    | _, _ => [n y, n z]
  | _ => []

/-- `cpy` (R232 to R236). -/
def execCpy (b : BitVec 1) (d : BitVec 2) (x y z : Reg) (s : State) : Result :=
  .next (s.checked (.cpy b d x y z) fun s =>
    match s.copySides d y z with
    | .error c => (s.raiseRecord s.w.id.ctx c (s.copyHandles d y z)).recordReads s.w.id.ctx (s.copyHandles d y z)
    | .ok (src, dst) => s.acceptCopy b x src dst (s.copyHandles d y z))

/-- `cpyg` (R237): a leased address register raises 0x06 (R218). -/
def execCpyg (b : BitVec 1) (d : BitVec 2) (x y z : Reg) (s : State) : Result :=
  .next (s.checked (.cpyg b d x y z) fun s =>
    if s.leased (.cpyg b d x y z) then s.raiseCode 0x06
    else
      match s.gatherSides d y z with
      | .error (c, []) => s.raiseCode c
      | .error (c, rows) => s.raiseLanes c rows false
      | .ok (src, dst) => s.acceptCopy b x src dst [])

/-- `cpcommit` (R216): the open copies become the warp's next copy batch. -/
def execCpcommit (s : State) : Result :=
  .next (s.checked .cpcommit fun s =>
    if 15 ≤ s.w.copyBatches.length then s.holdFor .batches
    else (s.finish fun w => { w with copyBatches := w.copyBatches ++ [⟨w.openCopies⟩], openCopies := [] }).settleCopies s.w.id)

/-! ### Prefetches (R95, R239) -/

/-- Bring the sector at an address into L2 when translation and ownership allow it; nothing is marked accessed (R95). -/
def State.prefetch (s : State) (e : Engine) (a : Access) (va : Nat) : State :=
  match s.translate e.tlb e.ctx a e.super va with
  | .error _ => s
  | .ok ha => if s.sectorCode e.ctx (sectorOf ha) 64 != 0 then s else s.sectorFill e.ctx (sectorOf ha) 64

/-- `pft` (R239). -/
def execPft (y : Reg) (s : State) : Result :=
  .next (s.checked (.pft y) fun s =>
    let n (r : Reg) : Nat := (s.w.readS r).toNat
    (match s.fetchRecord s.w.core s.w.id.ctx (n y) with
    | .error _ => s
    | .ok r => ((r.addresses (n (y + 1)) (n (y + 2))).map fun va => va / 64 * 64).eraseDups.foldl
        (fun s va => s.prefetch (fetcherOf s.w.core s.w.id.ctx) .engineRead va) s).advance)

/-- Bring the sector at an address into L2, or into L1 as a default load does (R239): the core's pending stores to it are performed first
(R281), and a line that an engine owns is not reached (R286). -/
def State.prefetchLane (s : State) (l1 : Bool) (va : Nat) : State :=
  let w := s.w
  match s.translate (.core w.core) w.id.ctx .load w.super va with
  | .error _ => s
  | .ok ha =>
    if s.homeBlocked [] ha then s
    else
      let s := if l1 then s.landSectors w.core w.id.ctx none [sectorOf ha] else s
      -- all of the sector is brought in, so that all of it must be owned and good (R95)
      if s.sectorCode w.id.ctx (sectorOf ha) 64 != 0 then s
      else
        let s := s.sectorFill w.id.ctx (sectorOf ha) 64
        if l1 then s.l1Fill w.core w.id.ctx ha false else s

/-- `pref` (R239, R218). -/
def execPref (l : BitVec 2) (a : Reg) (s : State) : Result :=
  .next (s.checked (.pref l a) fun s =>
    if s.leased (.pref l a) then s.raiseCode 0x06
    else ((s.globalAddrs a 0).foldl (fun s p => s.prefetchLane (l == 1) p.2) s).advance)

/-! ### Scratchpad pages as a copy reaches them (R84, R337, R342) -/

/-- Pages of a range that a copy accepted on a core cannot reach yet: neither resident nor still held by that core, which the team has left
(R342); it pages them in before it moves data (R85). -/
def Team.awaited (t : Team) (core : CoreId) (off len : Nat) : List Nat :=
  if t.st == .saved then []
  else (pagesOf off len).filter fun n => match (t.page n).st with | .resident => false | .remote old => old != core | _ => true

/-- A page's bytes and marks; for a saved team, through its backing location (R337). -/
def State.copyPage (s : State) (t : Team) (n : Nat) : List Byte × List (Nat × Code) :=
  let p := t.page n
  match p.st with
  | .zero => (List.replicate 2048 0, [])
  | .backed => s.spadFill t p
  | _ => (p.bytes, p.marks)

/-- Bytes of a range of a team's scratchpad, or 0x15 where a sector is marked (R84). R84 does not say whether a copy's read counts as the
first access to a marked sector: the mark keeps its first code for the next load, the model's choice (log 51). -/
def State.copySpadRead (s : State) (t : Team) (off len : Nat) : Except (Code × Nat) (List Byte) :=
  let pages := (pagesOf off len).map fun n => (n, s.copyPage t n)
  let marked := (spadSectors off len).any fun q => pages.any fun p => p.1 == q.1 && p.2.2.any fun m => m.1 == q.2
  if marked then .error (0x15, 0)
  else .ok (((pages.flatMap fun p => p.2.1).drop (off % 2048)).take len)

/-- Marks left after bytes were written over sectors: those covered wholly are clear. -/
def marksAfter (marks : List (Nat × Code)) (off len : Nat) : List (Nat × Code) :=
  marks.filter fun m => !(decide (off ≤ 64 * m.1) && decide (64 * m.1 + 64 ≤ off + len))

/-- The marks of a page with what its entry says of a lost page: every sector (R84, step 2). -/
def Page.allMarks (p : Page) : List (Nat × Code) :=
  match p.lost with
  | none => p.marks
  | some c => (List.range 32).map fun i => (i, ((p.marks.find? fun m => m.1 == i).map (·.2)).getD c)

/-- Write bytes within one page: where the page lies, or at its backing location for a saved team (R337). Sectors that the bytes do not cover
keep their marks, in DRAM metadata or in the page's entry. A write of a copy issued before the checkpoint is not logged (R334). -/
def State.copyPageWrite (s : State) (id : TeamId) (early : Bool) (n off : Nat) (bytes : List Byte) : State :=
  match s.team? id with
  | none => s
  | some t =>
    let p := t.page n
    let marks := marksAfter p.allMarks off bytes.length
    let toBacking (off : Nat) (bytes : List Byte) : State :=
      let va := s.backingVa t n
      let r := if s.backingBad id.ctx va true then (s, 0x09) else s.unitWrite id.ctx (va + off) bytes
      let lost : Option Code := if r.2 == 0 then none else some (if r.2 == 0x0A then 0x0A else 0x09)
      let homes := (pieces 34 (va + off) bytes.length).filterMap fun p => match s.walk id.ctx p.1 with | .error _ => none | .ok l => some (l.home p.1)
      ((if r.2 == 0 then r.1.backingLines id.ctx homes else r.1) : State).setTeam id fun t => t.setPage n fun g =>
        { g with st := .backed, bytes := [], dirty := false, filled := true, marks := if lost.isSome then [] else marks, lost := lost }
    match p.st with
    | .zero => toBacking 0 (overwrite (List.replicate 2048 0) off bytes)
    | .backed => toBacking off bytes
    | _ => s.setTeam id fun t => t.setPage n fun g =>
        { g with bytes := overwrite p.bytes off bytes, dirty := true, filled := true, marks := marks
                 logged := if early then g.logged else g.logged.or (some t.core) }

/-- The bytes of a page's backing as they stood at the context's checkpoint. -/
def State.backingAtCheckpoint (s : State) (t : Team) (n : Nat) : List Byte :=
  let undo := ((s.ctx? t.id.ctx).map (·.undo)).getD []
  (rangeFrom (s.backingVa t n) 2048).map fun va =>
    match s.walk t.id.ctx va with
    | .error _ => 0
    | .ok l =>
      let ha := l.home va
      match undo.find? fun u => u.ha == lineOf ha with
      | some u => ((u.bytes)[ha % 256]?).getD 0
      | none => s.mem.read ha

/-- The marks of the sectors of a page's backing as they stood at the context's checkpoint: what the next page-in meets there. -/
def State.backingMarks (s : State) (t : Team) (n : Nat) : List (Nat × Code) :=
  let undo := ((s.ctx? t.id.ctx).map (·.undo)).getD []
  (List.range 32).filterMap fun i =>
    match s.walk t.id.ctx (s.backingVa t n + 64 * i) with
    | .error _ => some (i, 0x09)
    | .ok l =>
      let ha := l.home (s.backingVa t n + 64 * i)
      let mark : Option Mark := match undo.find? fun (u : UndoLine) => u.ha == lineOf ha with
        | some u => (u.marks.find? fun m => m.1 == sectorOf ha).map (·.2)
        | none => s.mark (sectorOf ha)
      mark.map fun m => (i, if m == .poisoned then 0x15 else 0x16)

/-- A copy issued before the checkpoint also lands in the checkpoint's pages (R337); the other sectors keep their marks. -/
def State.landInSnapshot (s : State) (id : TeamId) (n off : Nat) (bytes : List Byte) : State :=
  match (s.ctx? id.ctx).bind fun c => c.snapshot.teams.find? fun t => t.id == id with
  | none => s
  | some t =>
    let p := t.page n
    let old := match p.st with
      | .zero => List.replicate 2048 0
      | .backed => s.backingAtCheckpoint t n
      | _ => p.bytes
    let marks := if p.st == .backed && p.lost.isNone then p.marks ++ (s.backingMarks t n).filter fun m => !(p.marks.any fun q => q.1 == m.1)
                 else p.allMarks
    let g (p : Page) : Page :=
      { p with st := (match p.st with | .zero | .backed => .resident | x => x), bytes := overwrite old off bytes, dirty := true, filled := true,
               marks := marksAfter marks off bytes.length, lost := none }
    s.setCtx id.ctx fun c =>
      { c with snapshot := { c.snapshot with teams := mapWhere (fun x => x.id == id) (fun x => x.setPage n g) c.snapshot.teams } }

/-- Write a range of a team's scratchpad, page by page. -/
def State.copySpadWrite (s : State) (id : TeamId) (early : Bool) : Nat → Nat → List Byte → State
  | 0, _, _ => s
  | fuel + 1, off, bytes =>
    if bytes.isEmpty then s
    else
      let k := 2048 - off % 2048
      let now := bytes.take k
      let s := if early then s.landInSnapshot id (off / 2048) (off % 2048) now else s
      (s.copyPageWrite id early (off / 2048) (off % 2048) now).copySpadWrite id early fuel (off + k) (bytes.drop k)

/-! ### Conversion (R235) -/

/-- The exact values of a tile: MX and scaled LG6 elements at their scaled values. -/
def State.tileValues (s : State) (e : Engine) (r : TileRecord) (row col : Nat) (sc : Option TileRecord) : Except (Code × Nat) (List (List Num)) :=
  match s.tileRead e r row col with
  | .error x => .error x
  | .ok codes =>
    sequence (((r.cells row col).zip codes).map fun q =>
      sequence ((q.1.zip q.2).map fun p =>
        let v := elemValue r.format p.2
        match sc with
        | none => .ok v
        | some x =>
          if !x.inside (p.1.1 / 32) p.1.2 then .ok (mulNum v (scaleValue 0))
          else (s.engineElement e (x.bits (p.1.1 / 32) p.1.2)).map fun b => mulNum v (scaleValue b)))

/-- A row of values converted into a destination (R52 to R56, R235): element codes, scale bytes, flags. `linear` is the linear index of
its first element. A row shorter than a rotation or scale block takes the free values. R52 rotates FP32 values: an exact source value that
binary32 cannot hold is rounded to nearest even before it, its overflow flag kept, the model's choice (log 49). -/
def convertRow (dst : TileRecord) (linear : Nat) (free : Nat → Nat) (xs : List Num) : List Nat × List Nat × Word :=
  let b := rotBlock dst.rot
  if (dst.rotates && xs.length % b != 0) || (dst.scaled && xs.length % 32 != 0) then
    ((List.range xs.length).map fun j => free (linear + j) % 2 ^ elemBits dst.format, if dst.scaled then [free (linear + xs.length) % 256] else [],
      BitVec.ofNat 32 (free (linear + xs.length + 1)))
  else
    let q :=
      if dst.rotates then
        let ws := xs.map fun x => roundF32 0 x
        let r := rotateRow b (BitVec.ofNat 32 dst.seed) linear (ws.map (·.1))
        (r.1.map numF32, ws.foldl (fun f w => f ||| w.2) r.2)
      else (xs, 0)
    if dst.scaled then
      let r := (blocks 32 xs.length q.1).map fun bl => scaledBlock dst.format bl
      (r.flatMap fun t => t.2.1, r.map (·.1), r.foldl (fun f t => f ||| t.2.2) q.2)
    else
      let r := q.1.map (plainElement dst.format)
      (r.map (·.1), [], r.foldl (fun f t => f ||| t.2) q.2)

/-- The scale bytes' places in the destination's scale tensor. -/
def scaleWrites (dst : TileRecord) (row col : Nat) (sc : Option TileRecord) (scales : List (List Nat)) : List (Nat × Nat × Nat × Nat) :=
  match sc with
  | none => []
  | some x =>
    (scales.zip (List.range scales.length)).flatMap fun q =>
      (q.1.zip (List.range q.1.length)).flatMap fun p =>
        let i := dst.index row col q.2 (32 * p.2)
        if x.inside (i.1 / 32) i.2 then (x.bits (i.1 / 32) i.2).map fun c => (c.1, c.2.1, c.2.2, p.1) else []

/-! ### Performing a copy (R235, R236) -/

/-- What a copy writes: bits of global memory, bytes of the scratchpad, and the flags of its conversion. -/
structure CopyData where
  global : List (Nat × Nat × Nat × Nat)
  spad : List (Nat × List Byte)
  flags : Word
  deriving DecidableEq, Repr

/-- The bytes of a list of codes in scratchpad form. -/
def spadForm (fmt : Nat) (codes : List (List Nat)) : List Byte := codes.flatten.flatMap fun c => leBytes (elemBytes fmt) c

/-- The codes that scratchpad bytes hold, by rows. -/
def spadCodes (r : TileRecord) (bytes : List Byte) : List (List Nat) :=
  let w := elemBytes r.format
  (List.range (2 ^ r.rows)).map fun i => (List.range (2 ^ r.cols)).map fun j =>
    leNat ((bytes.drop ((i * 2 ^ r.cols + j) * w)).take w) % 2 ^ elemBits r.format

/-- Bytes of global memory as an engine reads them. -/
def State.engineBytes (s : State) (e : Engine) (va len : Nat) : Except (Code × Nat) (List Byte) :=
  sequence ((rangeFrom va len).map fun a => s.engineByte e (a % 2 ^ 64))

/-- The data of a copy, or the fault that its source meets. -/
def State.copyData (s : State) (c : Copy) (t : Team) : Except (Code × Nat) CopyData :=
  let e := engineOf c.core.part c.engine c.warp.ctx
  match c.src, c.dst with
  | .tile r row col _, .spad off _ => (s.tileRead e r row col).map fun codes => ⟨[], [(off, spadForm r.format codes)], 0⟩
  | .spad off len, .tile r row col _ => (s.copySpadRead t off len).map fun bytes => ⟨r.writes row col (spadCodes r bytes), [], 0⟩
  | .tile a ra ca sa, .tile b rb cb sb =>
    if a.format == b.format then (s.tileRead e a ra ca).map fun codes => ⟨b.writes rb cb codes, [], 0⟩
    else
      (s.tileValues e a ra ca sa).map fun vals =>
        let free (k : Nat) : Nat := (Config.freeWord (s.freeIx + k)).toNat
        let rows := (vals.zip (List.range vals.length)).map fun q =>
          let i := b.index rb cb q.2 0
          convertRow b (i.2 * b.dim 0 + i.1) free q.1
        ⟨b.writes rb cb (rows.map (·.1)) ++ scaleWrites b rb cb sb (rows.map fun x => x.2.1), [],
          (rows.foldl (fun f x => f ||| x.2.2) 0) &&& convertFlags⟩
  | .spad off len, .spad dest _ => (s.copySpadRead t off len).map fun bytes => ⟨[], [(dest, bytes)], 0⟩
  | .rows addrs len, .spad off _ =>
    (sequence (addrs.map fun p => (s.engineBytes e p.2 len).map fun b => (off + p.1 * len, b))).map fun l => ⟨[], l, 0⟩
  | .spad off _, .rows addrs len =>
    (sequence (addrs.map fun p => (s.copySpadRead t (off + p.1 * len) len).map fun b => (p.2, b))).map fun l =>
      ⟨l.flatMap fun q => (q.2.zip (List.range q.2.length)).map fun b => ((q.1 + b.2) % 2 ^ 64, 0, 8, b.1.toNat), [], 0⟩
  | _, _ => .ok ⟨[], [], 0⟩

/-- Pages that a copy waits for. -/
def State.copyAwaits (s : State) (c : Copy) : List Nat :=
  match s.team? c.warp.teamId with
  | none => []
  | some t => ([c.src, c.dst].flatMap fun side => match side.spadRange with | some (off, len) => t.awaited c.core off len | none => []).eraseDups

/-- The copy may be performed (R235, R286, R288). -/
def State.copyReady (s : State) (c : Copy) : Bool :=
  !c.performed && !s.engineBlocked c.id c.core c.reads c.lines && !s.engineAwaits c.id c.warp (c.reads ++ c.lines) && (s.copyAwaits c).isEmpty

/-- The copy's work is over, with its code and flags; stores that waited for it to write its lines land (R286). -/
def State.copyOver (s : State) (id : Nat) (code : Code) (flags : Word) : State :=
  let ended (c : Copy) : Copy := { c with performed := true, code := code, flags := flags }
  ({ s with copies := mapWhere (fun c => c.id == id) ended s.copies } : State).landAcked

/-- The copy was issued before the latest checkpoint of its context (R337). -/
def State.early (s : State) (c : Copy) : Bool := ((s.ctx? c.warp.ctx).map fun x => decide (c.id < x.snapshot.nextCopy)).getD false

/-- The pages of the copy's scratchpad ranges become the most recently used (R84). -/
def State.copyTouches (s : State) (c : Copy) : State :=
  let pages := [c.src, c.dst].flatMap fun side => match side.spadRange with | some (off, len) => pagesOf off len | none => []
  { s with nextId := s.nextId + 1 }.setTeam c.warp.teamId fun t => t.copyUse pages s.nextId

/-- COPY_PERFORM (R235, R236): all the data moves. R236 lets each destination sector hold the new or the earlier bytes after a fault: here a
fault on either side leaves every destination byte as it was, the model's choice (log 65). A write to host or
peer memory is irrevocable (R293, log 66). -/
def State.copyPerform (s : State) (id : Nat) : State :=
  match s.copies.find? fun c => c.id == id with
  | none => s
  | some c =>
    if !s.copyReady c then s
    else
      let s := (s.engineDrain c.id c.core c.warp (c.reads ++ c.lines)).copyTouches c
      match s.team? c.warp.teamId with
      | none => s.copyOver id 0 0
      | some t =>
        let e := engineOf c.core.part c.engine c.warp.ctx
        let s' := s.engineTouch e c.src.addresses
        match s.copyData c t with
        | .error (code, va) => (s'.walkMet c.warp.ctx code va).copyOver id code 0
        | .ok d =>
          match s.engineWriteFault e (d.global.map (·.1)) with
          | some (code, va) => (s'.walkMet c.warp.ctx code va).copyOver id code 0
          | none =>
            let early := s.early c
            -- a line that did not translate at issue is owned only now (R286)
            let homes := s'.engineLines e .engineWrite (d.global.map (·.1))
            let s' := s'.ownLines c.core c.warp.ctx homes
            let s' := s'.engineWrite e (if early then none else some c.core) d.global
            let s' := d.spad.foldl (fun s q => s.copySpadWrite t.id early (q.2.length / 2048 + 2) q.1 q.2) s'
            let s' := { s' with freeIx := s'.freeIx + d.global.length + 2 }
            (s'.copyOver id 0 d.flags).wroteFar c.warp homes

/-- COPY_PERFORM (R235). -/
def execCopyPerform (copy : Nat) (s : State) : Result := .next (s.copyPerform copy)

/-! ### Completion (R216, R217, R233, R236, R242) -/

/-- A scalar of the user's: while a handler runs, s112 to s127 are in what its entry kept (R328). -/
def Warp.setUserScalar (w : Warp) (k : Nat) (v : Word) : Warp :=
  match w.handler with
  | some h => if 112 ≤ k then { w with handler := some { h with bank := h.bank.set! (k - 112) v } } else { w with scalars := w.scalars.set! k v, logged := w.logged.scalar k }
  | none => { w with scalars := w.scalars.set! k v, logged := w.logged.scalar k }

/-- What the completion of a copy does to its warp: the token's code, the flags, and the batches that complete. -/
def Warp.copyDone (w : Warp) (c : Copy) (code : Code) : Warp :=
  let w := w.setFlags c.flags
  let w := { w with tokens := w.tokens.filter fun k => k.2 != c.id }
  match c.token with
  | none => w
  | some k => w.setUserScalar (k % 128) (code.setWidth 32)

/-- The arrival of a copy at its barrier: the team, and the code of the token (R242). -/
def Team.copyArrive (t : Team) (c : Copy) : Team × Code :=
  match c.barrier with
  | none => (t, c.code)
  | some n =>
    match t.barrier? n with
    | none => (t, if c.code == 0 then 0x1B else c.code)
    | some b => (t.setBarrier n b.arrive, c.code)

/-- COPY_COMPLETE (R216, R217, R233). A copy issued before the checkpoint also counts for it (R337). -/
def State.copyComplete (s : State) (id : Nat) : State :=
  match s.copies.find? fun c => c.id == id && c.performed with
  | none => s
  | some c =>
    let early := s.early c
    let s := { s with copies := s.copies.filter fun x => x.id != id }
    let r := match s.team? c.warp.teamId with
      | none => (s, c.code)
      | some t => let q := t.copyArrive c; (s.putTeam q.1, q.2)
    let s := (r.1.setWarp c.warp fun w => w.copyDone c r.2).settleCopies c.warp
    if early then s.setCtx c.warp.ctx fun x => { x with snapshot := { x.snapshot with landed := x.snapshot.landed ++ [c] } } else s

/-- COPY_COMPLETE (R217). -/
def execCopyComplete (copy : Nat) (s : State) : Result := .next (s.copyComplete copy)

end Sys2Proof.Machine
end

