-- ==== Sys2Proof/Machine/Frames.lean ====
section
/-!
DEFINITION. Creating grids: kernel headers (R388 to R394), frame classes and frames (R257 to R263), and the room that a core has for
teams (R9, R305), as `launch`, launch packets, work-graph nodes and counted tasks share them.
-/

namespace Sys2Proof.Machine

/-! ### Kernel headers (R388 to R394) -/

/-- An address that a fragment may stand at: bits 1:0 zero and bits 4:2 nonzero (R390). -/
def codeAddress (a : Nat) : Bool := a % 4 == 0 && a / 4 % 8 != 0

/-- Bytes `lo` to `hi - 1` are zero. -/
def zeroBytes (b : List Byte) (lo hi : Nat) : Bool := ((b.drop lo).take (hi - lo)).all (· == 0)

/-- Pairs of bytes. -/
def bytePairs : List Byte → List (Nat × Nat)
  | a :: b :: rest => (a.toNat, b.toNat) :: bytePairs rest
  | _ => []

/-- The register block of a variant (R24): its registers rounded up to a power of two, at least 16. -/
def blockSize (regs : Nat) : Nat := powerAtLeast regs 4 16

/-- A switch-point record of a variant with `regs` registers, if it breaks no rule of R391. -/
def parseSwitch (b : List Byte) (regs : Nat) : Option SwitchPoint :=
  let nv := leAt b 2 1
  let ns := leAt b 3 1
  let flags := leAt b 1 1
  let v := bytePairs ((b.drop 16).take 32)
  let c := bytePairs ((b.drop 48).take 32)
  let vs := v.take nv
  let ss := c.take ns
  let ok := decide (flags ≤ 1) && decide (nv ≤ 16) && (flags == 0 || nv == 0) && decide (ns ≤ 16) && zeroBytes b 4 8 && codeAddress (leAt b 8 8) &&
    ((v.drop nv).all (· == (0, 0))) && ((c.drop ns).all (· == (0, 0))) && (vs.all fun p => decide (p.1 < blockSize regs)) &&
    (ss.all fun p => decide (1 ≤ p.1) && decide (p.1 ≤ 127) && decide (1 ≤ p.2) && decide (p.2 ≤ 127))
  if ok then some ⟨leAt b 0 1, flags == 1, BitVec.ofNat 64 (leAt b 8 8), vs, ss⟩ else none

/-- Numbers rise strictly. -/
def rising : List Nat → Bool
  | a :: b :: rest => decide (a < b) && rising (b :: rest)
  | _ => true

/-- Some value for every element, or none. -/
def allSome {α : Type} : List (Option α) → Option (List α)
  | [] => some []
  | none :: _ => none
  | some x :: rest => (allSome rest).map (x :: ·)

/-- Read `n` bytes of a context's memory through the front end's own path. -/
def State.frontRead (s : State) (ctx va n : Nat) : Option (List Byte) :=
  match s.unitRead ctx va n with
  | .ok b => some b
  | .error _ => none

/-- A variant entry with its switch-point records, if it breaks no rule of R390 and R391. -/
def State.parseVariant (s : State) (ctx va : Nat) : Option Variant :=
  match s.frontRead ctx va 64 with
  | none => none
  | some b =>
    let regs := leAt b 16 2
    let warps := leAt b 18 2
    let spad := leAt b 20 4
    let privsz := leAt b 24 4
    let barriers := leAt b 28 2
    let nsw := leAt b 30 2
    let stab := leAt b 8 8
    let ok := codeAddress (leAt b 0 8) && decide (1 ≤ regs) && decide (regs ≤ 256) && decide (1 ≤ warps) && decide (warps ≤ 32) &&
      decide (spad ≤ 2097152) && decide (privsz ≤ 16384) && privsz % 4 == 0 && decide (barriers ≤ 256) && decide (nsw ≤ 256) &&
      zeroBytes b 32 64
    if !ok then none
    else
      match allSome ((List.range nsw).map fun i => (s.frontRead ctx (stab + 80 * i) 80).bind fun r => parseSwitch r regs) with
      | none => none
      | some pts => if rising (pts.map (·.number)) then some ⟨BitVec.ofNat 64 (leAt b 0 8), regs, warps, spad, privsz, barriers, pts⟩ else none

/-- The header that a descriptor leads to: at most four forward links (R394). -/
def State.reachHeader (s : State) (ctx : Nat) : Nat → Nat → Option (Nat × List Byte)
  | 0, _ => none
  | fuel + 1, va =>
    match s.frontRead ctx va 64 with
    | none => none
    | some b => if leAt b 8 8 = 0 then some (va, b) else s.reachHeader ctx fuel (leAt b 8 8)

/-- A kernel as a launch reads it (R389, R393). -/
structure Kernel where
  header : Nat
  variants : List Variant
  legacy : Bool
  hinted : Bool
  deriving DecidableEq, Repr

/-- The kernel of a descriptor, checked (R393, R394). The file header gives the legacy flag and the stepping (R388, R395): hints act only in a
grid whose file was built for this part's stepping and does not ask for interlocked mode; every other grid runs in interlocked mode (R98, R128). -/
def State.kernel (s : State) (ctx descriptor : Nat) : Option Kernel :=
  match s.reachHeader ctx 5 descriptor with
  | none => none
  | some (va, b) =>
    let nvar := leAt b 5 1
    let flags := leAt b 6 1
    let ok := leAt b 0 4 == 0x5244484B && leAt b 4 1 == 1 && decide (1 ≤ nvar) && decide (nvar ≤ 4) && decide (flags ≤ 1) && leAt b 7 1 == 0 &&
      zeroBytes b 40 64
    if !ok then none
    else
      match s.frontRead ctx (leAt b 16 8) 64 with
      | none => none
      | some o =>
        match allSome ((List.range nvar).map fun i => s.parseVariant ctx (leAt b 24 8 + 64 * i)) with
        | none => none
        | some vs =>
          let hinted := leAt o 6 2 == s.sluice.stepping && leAt o 8 1 % 2 == 0
          some ⟨va, vs, leAt o 8 1 / 2 % 2 == 1, hinted⟩

/-- The ranges of memory that the checks of a descriptor read, in order (R393, R394). -/
def State.kernelReads (s : State) (ctx : Nat) : Nat → Nat → List (Nat × Nat)
  | 0, _ => []
  | fuel + 1, va =>
    (va, 64) ::
      match s.frontRead ctx va 64 with
      | none => []
      | some b =>
        if leAt b 8 8 != 0 then s.kernelReads ctx fuel (leAt b 8 8)
        else
          (leAt b 16 8, 64) :: (List.range (leAt b 5 1)).flatMap fun i =>
            let entry := leAt b 24 8 + 64 * i
            (entry, 64) ::
              match s.frontRead ctx entry 64 with
              | none => []
              | some v => (List.range (min (leAt v 30 2) 256)).map fun k => (leAt v 8 8 + 80 * k, 80)

/-! ### Room on a core (R9, R24, R305) -/

/-- The scratchpad of a variant (R82): rounded up to 2 KiB. -/
def spadSize (spad : Nat) : Nat := roundUp spad 2048

/-- What teams use on a core: warps and registers of each shuttle, barriers, declared scratchpad. -/
structure Usage where
  warps : List Nat
  regs : List Nat
  barriers : Nat
  spad : Nat
  deriving DecidableEq, Repr

/-- An empty core. -/
def Usage.empty : Usage := ⟨List.replicate 8 0, List.replicate 8 0, 0, 0⟩

/-- The usage with one more team of a variant from shuttle h. -/
def Usage.add (u : Usage) (v : Variant) (h : Nat) : Usage :=
  let on (k : Nat) : Nat := ((List.range v.warps).filter fun w => (h + w) % 8 == k).length
  { warps := (List.range 8).map fun k => ((u.warps[k]?).getD 0) + on k
    regs := (List.range 8).map fun k => ((u.regs[k]?).getD 0) + on k * blockSize v.regs
    barriers := u.barriers + v.barriers
    spad := u.spad + v.spad }

/-- The usage is within a core's resources (R6, R305). -/
def Usage.ok (u : Usage) : Bool :=
  u.warps.all (fun n => decide (n ≤ 8)) && u.regs.all (fun n => decide (n ≤ 512)) && decide (u.barriers ≤ 1024) && decide (u.spad ≤ 4 * 2 ^ 20)

/-- A core can hold `n` more teams at once, each in any variant. -/
def Usage.canHold (vs : List Variant) : Nat → Usage → Bool
  | 0, _ => true
  | n + 1, u =>
    -- warps alone leave room for the teams still to place
    let least := vs.foldl (fun m v => min m v.warps) 32
    if 64 < u.warps.sum + (n + 1) * least then false
    else vs.any fun v => (List.range 8).any fun h => (u.add v h).ok && Usage.canHold vs n (u.add v h)

/-- The most teams that an empty core holds at once. -/
def mostTeams (vs : List Variant) : Nat := ((List.range 65).reverse.find? fun n => Usage.canHold vs n Usage.empty).getD 0

/-- The logical compute cores of a partition that are present and in service, in ascending number (R354, R359, R360). -/
def State.computeCores (s : State) (part : Nat) : List Nat :=
  match s.part? part with
  | none => []
  | some p =>
    ((List.range 8).filter fun ply => s.sluice.roles.getLsbD ply).flatMap fun ply =>
      (rangeFrom (ply * p.size * 20) (p.size * 20)).filter fun n =>
        !s.sluice.absent.contains ⟨part, n⟩ && !(p.coreTable.any fun e => e.logical == n && !e.valid) &&
          !(p.clusterTable.any fun e => e.logical == n / 4 && !e.valid)

/-- A cooperative grid of `n` teams can never be placed at once in the partition (R245). -/
def State.neverPlaced (s : State) (part ctx n : Nat) (vs : List Variant) : Bool :=
  decide (((s.ctx? ctx).map (·.teamSlots)).getD 0 < n) || decide ((s.computeCores part).length * mostTeams vs < n)

/-! ### Frames and grids (R257 to R263) -/

/-- The class of a frame size (R245). -/
def frameClass (size : Nat) : Nat := powerAtLeast (size + 64) 8 256

/-- The lowest free frame of a class (R258). -/
def State.freeFrame (s : State) (ctx cls : Nat) : Option Nat :=
  ((s.ctx? ctx).bind (·.framePool)).bind fun p => ((p.free[classIx cls]?).getD []).head?

/-- The next grid identifier of a context (R263). -/
def nextGridId (used : List Nat) : Nat → Nat → Nat
  | 0, n => n
  | fuel + 1, n => let n := if 0x7FFFFFFF < n then 1 else n; if used.contains n then nextGridId used fuel (n + 1) else n

/-- What a new grid is created from. -/
structure GridRequest where
  ctx : Nat
  parent : Option Nat
  launcher : Option Nat
  descriptor : Nat
  size : Nat
  teams : Nat
  coop : Bool
  level : Nat
  display : List Display
  parentFrame : Nat
  source : Source
  prio : Nat
  packet : Option (BitVec 32 × Nat)
  task : Option Nat
  mask : Mask
  /-- Bytes written at lexical offsets before the first instruction (R315, R319). -/
  contents : List Byte
  deriving DecidableEq, Repr

/-- The 64 bytes of a new frame header (R259). -/
def GridRequest.header (r : GridRequest) (cls : Nat) : List Byte :=
  leBytes 8 r.parentFrame ++ leBytes 8 r.descriptor ++ leBytes 4 cls ++ leBytes 1 r.level ++ leBytes 1 1 ++ leBytes 2 0 ++
    leBytes 4 0 ++ leBytes 4 r.teams ++ leBytes 8 0 ++ leBytes 8 0 ++ leBytes 16 0

/-- Create a grid in a free frame (R258, R263): the frame is taken, zeroed and headed, and the header's live field rises (R394). -/
def State.createGrid (s : State) (r : GridRequest) (k : Kernel) (frame : Nat) : State × Nat :=
  let cls := frameClass r.size
  let used := (s.grids.filter fun g => g.ctx == r.ctx).map (·.id)
  let prev := ((s.ctx? r.ctx).map (·.prevGrid)).getD 0
  let id := nextGridId used (used.length + 1) (prev + 1)
  let take (p : FramePool) : FramePool :=
    { p with free := p.free.set (classIx cls) (((p.free[classIx cls]?).getD []).filter (· != frame)) }
  let s := s.setCtx r.ctx fun c => { c with prevGrid := id, framePool := c.framePool.map take }
  let zeros := overwrite (List.replicate (cls - 64) 0) 0 r.contents
  let s := (s.unitWrite r.ctx (frame + 64) zeros false).1
  let s := (s.unitWrite r.ctx frame (r.header cls) false).1
  let g : Grid :=
    { ctx := r.ctx, id := id, parent := r.parent, launcher := r.launcher, kernel := r.descriptor, header := k.header, variants := k.variants,
      legacy := k.legacy, hinted := k.hinted, frame := frame, cls := cls, level := r.level,
      display := r.display ++ [⟨BitVec.ofNat 64 frame, cls⟩], status := 1, children := 0, teamsLive := r.teams, teams := r.teams, nextTeam := 0,
      coop := r.coop, source := r.source, prio := r.prio, order := s.nextId, packet := r.packet, task := r.task, firstMask := r.mask, waiter := none,
      faultAddr := 0, faultSeen := false, code := 0, killed := false, recordAddr := 0 }
  let s := { s with grids := s.grids ++ [g], nextId := s.nextId + 1 }
  (s.writeLive r.ctx k.header, id)

end Sys2Proof.Machine
end

