-- ==== Sys2Proof/Machine/System.lean ====
section
/-!
DEFINITION. The meanings of the system instructions, class Y (R240 to R255): waiting, fences, barriers, launch and join, work graphs and
counted tasks, warp state, the return from a handler, and mapping a page.
-/

namespace Sys2Proof.Machine

/-! ### Waiting and fences (R240, R241) -/

/-- The condition of `wait` (R240). -/
def State.waitMet (s : State) (l st c t : Nat) : Bool :=
  decide (s.w.outLoads ≤ l) && decide (s.outStores s.w ≤ st) && decide (s.w.copyBatches.length ≤ c) && decide (s.w.tileBatches.length ≤ t)

/-- `wait` (R240). -/
def execWait (l st : BitVec 6) (c t : BitVec 4) (s : State) : Result :=
  .next (s.checked (.wait l st c t) fun s =>
    if s.waitMet l.toNat st.toNat c.toNat t.toNat then s.advance else s.holdFor .waitCount)

/-- `fence` (R241): kinds 1 acquire, 2 release, 3 both; scopes 0 team, 1 device, 2 domain, 3 system. -/
def State.fence (s : State) (k sc : BitVec 2) : State :=
  let rel := k.getLsbD 1
  let acq := k.getLsbD 0
  if sc = 0 then s.advance
  else if rel && s.outStores s.w != 0 then s.holdFor .storeCount
  else if acq && s.w.outLoads != 0 then s.holdFor .loadCount
  else
    let s := (if acq then s.l1Clear s.w.core none else s).advance
    if rel && (sc == 2 || sc == 3) then s.irrevocable s.w.id else s

/-- `fence` (R241, R220). -/
def execFence (k sc : BitVec 2) (s : State) : Result := .next (s.checked (.fence k sc) fun s => s.fence k sc)

/-! ### Barriers (R242 to R244) -/

/-- `bari` (R243). -/
def execBari (n : BitVec 10) (a : Reg) (s : State) : Result :=
  .next (s.checked (.bari n a) fun s =>
    let c := (s.w.readS a).toNat
    match s.team with
    | none => s
    | some t =>
      match t.barriers[n.toNat]? with
      | none => s.raiseCode 0x1B
      | some b =>
        if c = 0 || 65535 < c || b.arrivals != 0 then s.raiseCode 0x1B
        else (s.setTeam t.id fun t => t.setBarrier n.toNat ⟨c, 0, 0⟩).advance)

/-- `bara` (R244): the phase seen at arrival; one arrival. -/
def execBara (n : BitVec 10) (a : Reg) (s : State) : Result :=
  .next (s.checked (.bara n a) fun s =>
    match s.team with
    | none => s
    | some t =>
      match t.barrier? n.toNat with
      | none => s.raiseCode 0x1B
      | some b => (s.setTeam t.id fun t => t.setBarrier n.toNat b.arrive).finish fun w => w.writeS a (b.phase.setWidth 32))

/-- `barw` (R244). -/
def execBarw (n : BitVec 10) (a : Reg) (s : State) : Result :=
  .next (s.checked (.barw n a) fun s =>
    match s.team.bind fun t => t.barrier? n.toNat with
    | none => s.raiseCode 0x1B
    | some b => if b.phase.setWidth 32 == s.w.readS a then s.holdFor .barrier else s.advance)

/-- `bart` (R244). -/
def execBart (n : BitVec 10) (a b : Reg) (s : State) : Result :=
  .next (s.checked (.bart n a b) fun s =>
    match s.team.bind fun t => t.barrier? n.toNat with
    | none => s.raiseCode 0x1B
    | some x => s.finish fun w => w.writeS a (boolWord (x.phase.setWidth 32 != w.readS b)))

/-! ### Launch and join (R245, R246) -/

/-- What `launch` decides from its operands and the context's frames (R245): a refusal, or the kernel and the frame to create with. -/
def State.launchCheck (s : State) (descriptor teams size : Nat) (coop : Bool) : Except Word (Kernel × Nat) :=
  let ctx := s.w.id.ctx
  if 9 ≤ s.w.level then .error 0x80000002#32
  else if teams = 0 then .error 0x80000003#32
  else if 65472 < size then .error 0x80000004#32
  else
    match s.kernel ctx descriptor with
    | none => .error 0x80000005#32
    | some k =>
      if coop && s.neverPlaced s.w.core.part ctx teams k.variants then .error 0x80000006#32
      else
        match s.freeFrame ctx (frameClass size) with
        | none => .error 0x80000001#32
        | some f => .ok (k, f)

/-- The grid that a `launch` of the current warp creates (R261, R263). -/
def State.childRequest (s : State) (descriptor teams size : Nat) (coop : Bool) (g : Grid) : GridRequest :=
  { ctx := s.w.id.ctx, parent := some g.id, launcher := some s.w.id.team, descriptor := descriptor, size := size, teams := teams, coop := coop,
    level := s.w.level + 1, display := s.w.display.toList.take (s.w.level + 1), parentFrame := g.frame, source := g.source, prio := g.prio,
    packet := none, task := none, mask := 0xFFFFFFFF#32, contents := [] }

/-- `launch` (R245): a release at device scope first; a created grid is an irrevocable action (R220). -/
def State.launch (s : State) (d c f : Reg) (coop : Bool) : State :=
  if s.w.id.warp != 0 then s.raiseCode 0x19
  else
    let descriptor := (s.w.readS64 d).toNat
    let teams := (s.w.readS c).toNat
    let size := (s.w.readS f).toNat
    let reads := s.kernelReads s.w.id.ctx 5 descriptor
    match s.launchCheck descriptor teams size coop, s.grid with
    | .error e, _ =>
      let read := !(e == 0x80000002#32 || e == 0x80000003#32 || e == 0x80000004#32)
      (if read then s.unitReads s.w.id.ctx reads else s).finish fun w => w.writeS c e
    | .ok _, none => s
    | .ok (k, frame), some g =>
      if s.outStores s.w != 0 then s.holdFor .storeCount
      else
        let r := (s.unitReads s.w.id.ctx reads).createGrid (s.childRequest descriptor teams size coop g) k frame
        let s := r.1.setGrid g.ctx g.id fun g => { g with children := g.children + 1 }
        let s := s.setTeam s.w.id.teamId fun t => { t with joinSet := t.joinSet ++ [⟨r.2, none⟩] }
        (s.finish fun w => w.writeS c (BitVec.ofNat 32 r.2)).irrevocable s.w.id

/-- `launch` (R245). -/
def execLaunch (d c f : Reg) (p : BitVec 1) (s : State) : Result :=
  .next (s.checked (.launch d c f p) fun s => s.launch d c f (p == 1))

/-- The status of a completed join (R246). -/
def joinStatus (l : List JoinChild) : Word :=
  let outs := sortBy (fun a b => decide (a.2.2 < b.2.2)) (l.filterMap (·.outcome))
  let failed := (outs.filter fun o => o.1 == 0x11 || o.1 == 0x12).length
  let first := ((outs.find? fun o => o.1 == 0x11).map fun o => o.2.1.toNat).getD 0
  BitVec.ofNat 32 (min failed 65535 * 2 ^ 16 + first)

/-- `joinw` (R246): an acquire at device scope once every child has retired. -/
def State.join (s : State) (r : Reg) : State :=
  if s.w.id.warp != 0 then s.raiseCode 0x19
  else
    match s.team with
    | none => s
    | some t =>
      if t.joinSet.all fun c => c.outcome.isSome then
        let s := s.l1Clear s.w.core none
        let s := s.setTeam t.id fun t => { t with joinSet := [] }
        let s := s.finish fun w => { w.writeS r (joinStatus t.joinSet) with joining := none }
        s.joinWaiter t.id.ctx t.id.grid
      else
        let s := if s.w.joining.isSome then s
          else ({ s with nextId := s.nextId + 1, w := { s.w with joining := some s.nextId } } : State).joinWaiter t.id.ctx t.id.grid
        s.holdFor .children

/-- `joinw` (R246). -/
def execJoinw (r : Reg) (s : State) : Result := .next (s.checked (.joinw r) fun s => s.join r)

/-- `lxrd` (R247). -/
def execLxrd (l : BitVec 4) (d : Reg) (s : State) : Result :=
  .next (s.checked (.lxrd l d) fun s =>
    if s.w.level < l.toNat || 9 < l.toNat then s.raiseCode 0x0E
    else s.finish fun w => w.writeS64 d (((w.display[l.toNat]?).map (·.base)).getD 0))

/-! ### Work graphs and counted tasks (R248, R249) -/

/-- Records of a node that are not in a batch yet. -/
def Node.loose (n : Node) : Nat := n.records.length - n.due.sum

/-- A record enters the gatherer, which collects batches of 32 (R315). -/
def Node.append (n : Node) (time : Nat) (record : List Byte) : Node :=
  let n := { n with records := n.records ++ [(time, record)] }
  if n.loose = 32 then { n with due := n.due ++ [32] } else n

/-- The record of thread t (R248). -/
def Warp.record (w : Warp) (v : Reg) (t : Nat) : List Byte := (List.range 4).flatMap fun k => leBytes 4 (w.vnat (v.toNat + k) t)

/-- `enq` (R248): records accepted in ascending thread number; one that is accepted makes it irrevocable (R220). -/
def State.enqueue (s : State) (p : Pred) (v n : Reg) : State :=
  if s.leased (.enq p v n) then s.raiseCode 0x06
  else if s.outStores s.w != 0 then s.holdFor .storeCount
  else
    let ctx := s.w.id.ctx
    match (s.ctx? ctx).bind fun c => c.nodes.find? fun x => x.n == (s.w.readS n).toNat with
    | none => s.raiseCode 0x09
    | some node =>
      let r := s.lanes.foldl (fun (acc : Node × List Nat) t =>
        if acc.1.records.length < 256 then (acc.1.append s.clock (s.w.record v t), acc.2) else (acc.1, acc.2 ++ [t])) (node, [])
      let mask := s.mask
      let accepted := decide (r.2.length < s.lanes.length)
      let s := s.setCtx ctx fun c => { c with nodes := mapWhere (fun x => x.n == node.n) (fun _ => r.1) c.nodes }
      let s := s.finish fun w => w.writeP p mask (maskOf r.2)
      if accepted then s.irrevocable s.w.id else s

/-- `enq` (R248). -/
def execEnq (p : Pred) (v n : Reg) (s : State) : Result := .next (s.checked (.enq p v n) fun s => s.enqueue p v n)

/-- One ready task goes before another: higher priority, then earlier arrival, and of one cycle the lower task number (R318). -/
def readyFirst (a b : Nat × Nat × Nat) : Bool :=
  decide (b.2.1 < a.2.1) || (a.2.1 == b.2.1 && (decide (a.2.2 < b.2.2) || (a.2.2 == b.2.2 && decide (a.1 < b.1))))

/-- A task enters the ready queue in a cycle (R318). -/
def Ctx.makeReady (c : Ctx) (task prio clock : Nat) : Ctx := { c with ready := insertBy readyFirst (task, prio, clock) c.ready }

/-- Where a unit's read of a range stops: the first address at which it cannot go on (R326). -/
def State.unitStop (s : State) (ctx va n : Nat) : Nat :=
  (((pieces (n / 64 + 2) va n).find? fun p => match s.unitRead ctx p.1 p.2 with | .error _ => true | .ok _ => false).map (·.1)).getD va

/-- `depdec` (R249, R318). -/
def State.decrement (s : State) (r : Reg) : State :=
  if s.outStores s.w != 0 then s.holdFor .storeCount
  else
    let ctx := s.w.id.ctx
    let i := (s.w.readS r).toNat
    match (s.ctx? ctx).bind (·.taskTable) with
    | none => s.raiseCode 0x09
    | some (base, size, _) =>
      if size ≤ i then s.raiseCode 0x09
      else
        let va := base + 32 * i
        match s.unitRead ctx va 32 with
        | .error c => (s.raise { code := c, mask := s.mask, va := s.unitStop ctx va 32 }).unitReads ctx [(va, 32)]
        | .ok b =>
          let count := leAt b 16 2
          if count = 0 then s.raiseCode 0x12
          else
            let new := leBytes 2 (count - 1) ++ leBytes 1 (leAt b 18 1) ++ leBytes 1 (if count = 1 then 2 else leAt b 19 1)
            let q := s.unitWrite ctx (va + 16) new
            if q.2 != 0 then s.raise { code := q.2, mask := s.mask, va := va + 16, write := true }
            else
              let s := if count = 1 then q.1.setCtx ctx fun c => c.makeReady i (leAt b 18 1 % 16) s.clock else q.1
              (s.advance).irrevocable s.w.id

/-- `depdec` (R249). -/
def execDepdec (r : Reg) (s : State) : Result := .next (s.checked (.depdec r) fun s => s.decrement r)

/-! ### Window, format, switch points (R250 to R252) -/

/-- `winb` (R250); a value at or above the block size has raised 0x05 in the check. -/
def execWinb (b : BitVec 4) (s : State) : Result :=
  .next (s.checked (.winb b) fun s => s.finish fun w => { w with wbase := 16 * b.toNat })

/-- `fmt` (R42, R251). -/
def execFmt (r : Reg) (s : State) : Result :=
  .next (s.checked (.fmt r) fun s =>
    let f := s.w.readS r
    if fmtLegal f then s.finish fun w => w.setFrag fun g => { g with fmt := f } else s.raiseCode 0x01)

/-- The variant in which a team runs. -/
def State.variantOf (s : State) (t : Team) (v : Nat) : Option Variant := (s.grid? t.id.ctx t.id.grid).bind fun g => g.variants[v]?

/-- A switch-point record of a variant. -/
def Variant.point (v : Variant) (n : Nat) : Option SwitchPoint := v.points.find? fun p => p.number == n

/-- A request applies at a switch point (R321): the target declares it, and a change of warps needs the reshape bit in both records. -/
def requestApplies (old new : Variant) (n : Nat) : Bool :=
  match old.point n, new.point n with
  | some a, some b => old.warps == new.warps || (a.reshape && b.reshape)
  | _, _ => false

/-- 4,096 cycles have passed since the first arrival of a request's rendezvous: it is withdrawn (R252). -/
def State.lapsed (s : State) (r : SwitchReq) : Bool := r.point.any fun p => decide (p.2 + 4096 ≤ s.clock)

/-- `swpt` (R252). -/
def State.switchPoint (s : State) (n : Nat) : State :=
  match s.team with
  | none => s
  | some t =>
    match s.variantOf t t.variant with
    | none => s
    | some old =>
      if (old.point n).isNone then s.raiseCode 0x01
      else
        match t.request with
        | none => s.advance
        | some r =>
          if s.lapsed r then (s.withdrawSwitch t.id).advance
          else if !((s.variantOf t r.target).any fun new => requestApplies old new n) then s.advance
          else if s.mask != ~~~s.w.exited || (r.point.any fun p => p.1 != n) then (s.withdrawSwitch t.id).advance
          else
            let arrived : SwitchReq := { r with point := some (r.point.getD (n, s.clock)), arrived := r.arrived ++ [s.w.id.warp] }
            let s := s.setTeam t.id fun t => { t with request := some arrived }
            (s.setW fun w => { w.closeOpen with atSwitch := some n }).settleCopies s.w.id

/-- `swpt` (R252). -/
def execSwpt (n : BitVec 8) (s : State) : Result := .next (s.checked (.swpt n) fun s => s.switchPoint n.toNat)

/-! ### Supervisor and idle instructions (R253 to R255) -/

/-- `rfe` (R253, R330). -/
def execRfe (s : State) : Result := .next (s.checked .rfe State.returnFromHandler)

/-- The frame that an entry of a page-pool list names: its bits 51:12. No rule says what an entry means that is not aligned to 4 KiB or lies above
2^52, or that it is refused: the model takes the frame in which it lies, modulo 2^52, its choice (log 74). -/
def poolFrame (f : Nat) : Nat := f / 4096 * 4096 % 2 ^ 52

/-- What `mappg` writes for an address: entries to link (address and value), from the table down, and the frames left in the pool; `new` says
that the table is a frame just taken, all zero. `none` when the pool runs out. -/
def mapPlan (s : State) (va attrs : Nat) : Nat → Nat → Bool → List Nat → Option (List (Nat × Nat) × List Nat)
  | 0, _, _, frames => some ([], frames)
  | n + 1, table, new, frames =>
    let ha := table + 8 * (va / 2 ^ (12 + 9 * n) % 512)
    let e := if new then 0 else leNat (s.seenBytes ha 8)
    if n = 0 then
      match frames with
      | [] => none
      | f :: rest => some ([(ha, poolFrame f + attrs + 1)], rest)
    else if bitsOf e 0 0 == 1 then mapPlan s va attrs n (bitsOf e 51 12 * 4096) false frames
    else
      match frames with
      | [] => none
      | f :: rest => (mapPlan s va attrs n (poolFrame f) true rest).map fun r => ((ha, poolFrame f + 1) :: r.1, r.2)

/-- After pages have been mapped: an unfinished copy or matrix operation of the context owns the destination lines that translate only now,
and waits for the owners of source lines that do; its core drops its clean copies of the former (R286). -/
def State.reown (s : State) (ctx : Nat) : State :=
  let more (old : List Nat) (e : Engine) (a : Access) (vas : List Nat) : List Nat := (s.engineLines e a vas).filter fun l => !old.contains l
  let opLines (o : MatrixOp) : List Nat := if o.done || o.ctx != ctx then [] else more o.lines (fetcherOf o.core ctx) .engineWrite o.work.writes
  let opReads (o : MatrixOp) : List Nat :=
    if o.done || o.ctx != ctx then [] else more o.reads (fetcherOf o.core ctx) .engineRead (o.work.reads (fmtScale o.fmt))
  let engine (c : Copy) : Engine := engineOf c.core.part c.engine ctx
  let copyLines (c : Copy) : List Nat := if c.performed || c.warp.ctx != ctx then [] else more c.lines (engine c) .engineWrite c.dst.addresses
  let copyReads (c : Copy) : List Nat := if c.performed || c.warp.ctx != ctx then [] else more c.reads (engine c) .engineRead c.src.addresses
  let taken : List (CoreId × Nat) := (s.ops.flatMap fun o => (opLines o).map fun l => (o.core, l)) ++ s.copies.flatMap fun c => (copyLines c).map fun l => (c.core, l)
  { s with
    ops := s.ops.map fun o => { o with lines := o.lines ++ opLines o, reads := o.reads ++ opReads o }
    copies := s.copies.map fun c => { c with lines := c.lines ++ copyLines c, reads := c.reads ++ copyReads c }
    l1 := s.l1.filter fun x => !(x.ctx == ctx && !x.dirty && taken.contains (x.core, lineOf x.ha)) }

/-- The same for every context with such an operation: pages may be mapped in any way (R286). -/
def State.reownAll (s : State) : State :=
  let waiting := (s.ops.filter fun o => !o.done).map (·.ctx) ++ (s.copies.filter fun c => !c.performed).map (·.warp.ctx)
  waiting.eraseDups.foldl State.reown s

/-- `mappg` (R254): a rollback undoes its writes (R339). -/
def State.mapPage (s : State) (a p : Reg) : State :=
  let ctx := s.w.id.ctx
  let va := (s.w.readS64 a).toNat
  let log := some s.w.core
  if 2 ^ 57 ≤ va then s.raiseCode 0x09
  else
    match s.walk ctx va, s.ctx? ctx with
    | .ok _, _ => s.advance
    | _, none => s
    | .error c, some x =>
      if c != 0x08 then s.raiseCode c
      else
        let pool := x.pagePools.find? fun q => q.n == p.toNat
        let attrs := match pool with
          | none => 0
          | some q => (if q.write then 2 else 0) + (if q.exec then 4 else 0) + (if q.super then 8 else 0)
        let frames := (pool.map (·.frames)).getD []
        match mapPlan s va attrs 5 x.pageTable false frames with
        | none => s.raiseCode 0x09
        | some (links, left) =>
          let used := (frames.take (frames.length - left.length)).map poolFrame
          let bad := (used ++ links.map (·.1)).find? fun f => s.storeCode ctx f != 0
          match bad with
          | some f => s.raiseCode (s.storeCode ctx f)
          | none =>
            let writes : List (Nat × List Byte) :=
              (used.flatMap fun f => (List.range 64).map fun k => (f + 64 * k, List.replicate 64 0)) ++ links.reverse.map fun l => (l.1, leBytes 8 l.2)
            let s := (writes.foldl (fun s p => s.homeStore log ctx p.1 p.2) s).afterAccepted true writes
            let s := s.setCtx ctx fun c => { c with pagePools := mapWhere (fun q => q.n == p.toNat) (fun q => { q with frames := left }) c.pagePools }
            (s.reown ctx).advance

/-- `mappg` (R254); privileged (R125). -/
def execMappg (a p : Reg) (s : State) : Result := .next (s.checked (.mappg a p) fun s => s.mapPage a p)

/-- `sleep` (R255); `sleep 0` acts as `yield`. -/
def execSleep (n : BitVec 16) (s : State) : Result :=
  .next (s.checked (.sleep n) fun s =>
    s.finish fun w => if n = 0 then { w with yielded := w.yielded.set w.cur true } else { w with sleepUntil := some (s.clock + 64 * n.toNat) })

end Sys2Proof.Machine
end

