-- ==== Sys2Proof/Machine/WarpEvents.lean ====
section
/-!
DEFINITION. The events of warps and fragments: arrival at a join (R16), the split stack's own accesses (R20, R33), exchange and
activation (R21 to R23), sleep, returning loads, page-ins, instruction fetch (R102, R175) and retirement (R17, R264).
-/

namespace Sys2Proof.Machine

/-! ### Which warps may issue (R13, R21, R22) -/

/-- The ply of a core (R354). -/
def State.plyOf (s : State) (c : CoreId) : Nat := c.n / (20 * ((s.part? c.part).map (·.size)).getD 12)

/-- The team of a warp is stopped: it migrates or is saved. -/
def State.teamStopped (s : State) (w : Warp) : Bool := ((s.team? w.id.teamId).map fun t => t.st != .running).getD false

/-- The warp's shuttle file is being compacted, and its block moves (R26). -/
def State.moving (s : State) (w : Warp) : Bool :=
  ((s.core w.core).compacting.map fun c => c.2.any fun m => m.1 == w.id).getD false

/-- Nothing of the warp may issue, whatever its instructions: it is stopped, sleeps, waits for a checkpoint, or its context is paused
(R333) or not scheduled (R336), its team is stopped, its block moves, or its ply is hot (R352). -/
def State.halted (s : State) (w : Warp) : Bool :=
  !w.present || w.stopped || w.sleepUntil.isSome || w.awaitCheckpoint || s.teamStopped w || s.moving w ||
    s.sluice.stoppedPlies.contains (s.plyOf w.core) ||
    (match s.ctx? w.id.ctx with | none => false | some c => c.paused || c.savedOut || c.failed)

/-- The slots from which a warp could issue, in the order of R14; in supervisor mode only the handler's (R328). -/
def State.issueSlots (s : State) (w : Warp) : List (Fin 2) :=
  let live := w.slotOrder.filter fun k => w.slots[k].st == .live && !s.latched w.id k
  match w.handler with
  | some h => live.filter (· == h.slot)
  | none => if w.atSwitch.isSome then [] else live

/-- The slots whose next instruction does not wait, as found when it was last looked for (log 30). -/
def State.readySlots (s : State) (w : Warp) : List (Fin 2) := if s.halted w then [] else (s.issueSlots w).filter fun k => w.hold[k].isNone

/-- The warp is ready (R13, R14). -/
def State.ready (s : State) (w : Warp) : Bool := !(s.readySlots w).isEmpty

/-- The wait is a long-latency condition of R22: of a load, where it was predicted to miss L1. -/
def Hold.long : Hold → Bool
  | .loadResult missed => missed
  | .waitCount | .barrier | .children | .token | .pageIn _ | .latch => true
  | _ => false

/-- A long-latency condition of R22 holds for the fragment in a slot. -/
def State.slotLong (s : State) (w : Warp) (k : Fin 2) : Bool :=
  w.yielded[k] || s.latched w.id k || (match w.hold[k] with | some h => h.long | none => false)

/-- A long-latency condition of R22 holds for every live fragment; in supervisor mode only the handler's counts (R328). R22's "every live
fragment" does not say how it counts a fragment whose split-stack entry is still being read, nor what holds of a warp with no live fragment,
whose threads have exited and whose work is outstanding: the model does not count the former, and keeps the latter active; its choice
(log 62). -/
def State.longLatency (s : State) (w : Warp) : Bool :=
  let live := [(0 : Fin 2), 1].filter fun k => w.slots[k].st == .live && (match w.handler with | some h => h.slot == k | none => true)
  w.sleepUntil.isSome || (w.atSwitch.isSome && w.handler.isNone) || w.stopped || s.teamStopped w || s.sluice.stoppedPlies.contains (s.plyOf w.core) ||
    (!live.isEmpty && live.all (s.slotLong w))

/-- The ready pending warp of a shuttle that has been pending longest (R21, R22). -/
def State.nextPending (s : State) (core : CoreId) (shuttle : Nat) : Option Warp :=
  (s.warps.filter fun w => w.core == core && w.shuttle == shuttle && !w.active && s.ready w).foldl
    (fun best w => match best with | none => some w | some b => if w.pendingSince < b.pendingSince then some w else some b) none

/-- The context of a warp is scheduled on the device. -/
def State.scheduled (s : State) (ctx : Nat) : Bool := ((s.ctx? ctx).map fun c => !c.savedOut).getD false

/-- Cycles pass for a warp: the count of R23 grows while the warp is active, its context is scheduled and a ready pending warp of its shuttle
waits; the counts of R33 grow while the warp is resident and its queue is not empty. -/
def State.aged (s : State) (n : Nat) (w : Warp) : Warp :=
  let waits := w.active && s.scheduled w.id.ctx && (s.nextPending w.core w.shuttle).isSome
  let resident := !s.claimSaved (some w.id.teamId)
  { w with
    count := if waits then w.count + n else w.count
    rotation := Vector.ofFn fun q => if resident && !w.spill[q].isEmpty then w.rotation[q] + n else w.rotation[q] }

/-- Core cycles in a microsecond (R12: 2 µs are 1,700 cycles). -/
def cyclesPerUs : Nat := 850

/-- The cycle in which the timer of a node lapses (R315): that of its oldest record that is in no batch. -/
def Node.lapseAt (n : Node) : Option Nat := (n.records[n.due.sum]?).map fun r => r.1 + n.timerUs * cyclesPerUs

/-- Once that cycle is over, the records that are in no batch are one (R315); a 32nd record that arrives in it completes a full batch (R322). -/
def Node.lapse (n : Node) (clock : Nat) : Node :=
  if n.lapseAt.any fun l => decide (l < clock) then { n with due := n.due ++ [n.loose] } else n

/-- Time passes until a cycle: the counts of warps grow, and node timers lapse. -/
def State.passTo (s : State) (cycle : Nat) : State :=
  { s.mapWarps (fun _ => true) (s.aged (cycle - s.clock)) with
    ctxs := s.ctxs.map fun c => { c with nodes := c.nodes.map fun n => n.lapse (max s.clock cycle) }
    clock := max s.clock cycle, issued := s.issued.filter fun _ => decide (cycle ≤ s.clock), spent := s.spent && decide (cycle ≤ s.clock)
    faulted := if cycle ≤ s.clock then s.faulted else [] }

/-- A warp becomes active. -/
def State.activate (s : State) (id : WarpId) : State := s.setWarp id fun w => { w with active := true, count := 0 }

/-- The active warp is exchanged with a pending one. -/
def State.exchange (s : State) (leaving coming : WarpId) : State :=
  let n := s.nextId
  ({ s with nextId := n + 1 }.setWarp leaving fun w => { w with active := false, pendingSince := n, yielded := Vector.replicate 2 false }).activate coming

/-- WARP_EXCHANGE (R22). -/
def execWarpExchange (id : WarpId) (s : State) : Result :=
  .next (match s.warp? id with
    | none => s
    | some w =>
      match s.nextPending w.core w.shuttle with
      | none => s
      | some p => if w.active && s.longLatency w then s.exchange id p.id else s)

/-- EXCHANGE_COUNT_EXPIRY (R23): the count reaches 16,384 while a ready pending warp waits. -/
def execExchangeCountExpiry (id : WarpId) (s : State) : Result :=
  .next (match s.warp? id with
    | none => s
    | some w =>
      match s.nextPending w.core w.shuttle with
      | none => s
      | some p => if w.active && s.scheduled id.ctx then (s.passTo (s.clock + (16384 - w.count))).exchange id p.id else s)

/-- WARP_ACTIVATION (R21): the longest pending ready warp of a shuttle without an active warp. -/
def execWarpActivation (id : WarpId) (s : State) : Result :=
  .next (match s.warp? id with
    | none => s
    | some w =>
      let idle := !(s.warps.any fun x => x.core == w.core && x.shuttle == w.shuttle && x.active)
      if idle && ((s.nextPending w.core w.shuttle).map (·.id)) == some id then s.activate id else s)

/-- SLEEP_EXPIRY (R255): counted only while the context is scheduled. -/
def execSleepExpiry (id : WarpId) (s : State) : Result :=
  .next (match (s.warp? id).bind (·.sleepUntil) with
    | none => s
    | some d => if s.scheduled id.ctx then (s.passTo d).setWarp id fun w => { w with sleepUntil := none } else s)

/-! ### Fragments (R16, R20, R33) -/

/-- The fragment in a slot stands at the join of its record (R16). -/
def Warp.atJoin (w : Warp) (slot : Fin 2) : Bool :=
  w.slots[slot].st == .live &&
    (match w.slots[slot].frag.record with
      | none => false
      | some i => match w.split[i]? with
        | some (.record _ join _ _ _) => join == w.slots[slot].frag.pc
        | _ => false)

/-- FRAGMENT_ARRIVAL (R16): the fragment dissolves; with the last arrival the fragments fuse. -/
def State.arrive (s : State) (id : WarpId) (slot : Fin 2) : State :=
  match s.warp? id with
  | none => s
  | some w =>
    if w.super || w.stopped || !w.atJoin slot then s
    else
      let go (w : Warp) : Warp := ((w.emptySlot slot).leaveRecord slot s.clock 64 w.slots[slot].frag.record).freeDeadLevels.refill s.clock
      (s.writeRecords w (go w)).setWarp id go

/-- FRAGMENT_ARRIVAL (R16). -/
def execFragmentArrival (w : WarpId) (slot : Fin 2) (s : State) : Result := .next (s.arrive w slot)

/-- The fragment of a spilled entry as the warp knows it. -/
def Warp.spilledAt (w : Warp) (i : Nat) : Fragment :=
  match w.split[i]? with
  | some (.spilled f) => f
  | _ => Fragment.none

/-- A fragment that has come out of the split stack, or the code with which the warp stops: memory that holds another program counter than
the warp wrote may name a reed slot, where no fragment ever stands (R97); the model stops the warp with 0x04 (log 41). -/
def spilledCode (code : Code) (bytes : List Byte) : Code :=
  if code != 0 then code else if reedSlot (spilledFrag bytes 0).pc then 0x04 else 0

/-- SPILL_ENTRY_READ (R20, R397): the entry is read through the private path, after the warp's earlier stores to it, and the slot may issue.
R20 does not say when the entry becomes free: here once it has been read, since a failing read leaves the fragment in its entry (R397); the
model's reading (log 54). -/
def State.readEntry (s : State) (id : WarpId) (slot : Fin 2) : State :=
  match s.warp? id with
  | none => s
  | some w =>
    match w.slots[slot].st with
    | .reading e =>
      let va := w.entryVa e
      let reqs : List LaneReq := [⟨0, va, 0, 0, 16⟩]
      if w.stopped || (s.privWaits w.asEvent .load reqs).isSome then s
      else
        let r := (s.privDrain w .load reqs).privRead w va 16
        let code := spilledCode r.2.1 r.2.2
        if code != 0 then (r.1.focus id).stopOwnAccess code (w.spilledAt e) va false
        else
          let f := spilledFrag r.2.2 w.slots[slot].frag.entered
          let s' := if r.1.privWriteCode w va 16 != 0 then r.1 else r.1.privWrite w va (splitBytes .free none)
          s'.setWarp id fun w => (w.setEntry e .free).putSlot slot ⟨.live, f⟩
    | _ => s

/-- SPILL_ENTRY_READ (R20). -/
def execSpillEntryRead (w : WarpId) (slot : Fin 2) (s : State) : Result := .next (s.readEntry w slot)

/-- The older live slot of a warp, or of a legacy wave (R31, R33). While a handler runs, the fragment in its slot is not one of the warp's
fragments and keeps its slot, a point that R33 leaves open; the model's choice (log 56). -/
def Warp.olderSlot (w : Warp) (wave : Fin 2) : Option (Fin 2) :=
  let live (k : Fin 2) : Bool := w.slots[k].st == .live && !(w.handler.any fun h => h.slot == k)
  if w.legacy then (if live wave then some wave else none)
  else if live 0 && live 1 then (if w.slots[1].frag.entered < w.slots[0].frag.entered then some 1 else some 0)
  else if live 0 then some 0
  else if live 1 then some 1
  else none

/-- The arrival of a slot's fragment at a latch is undone: once it has left its slot, it issues its instruction again (log 55). -/
def State.unlatch (s : State) (id : WarpId) (slot : Fin 2) : State :=
  let leave (l : Latch) : Latch := { l with arrived := l.arrived.filter fun a => !(a.1 == id.warp && a.2.2 == slot) }
  { s with latches := (mapWhere (fun l => l.team == id.teamId) leave s.latches).filter fun l => !l.arrived.isEmpty }

/-- SPILL_ROTATION (R33): when the count reaches 2,048, the head of the spill queue changes places with the older live fragment, through the
head's entry. -/
def State.rotate (s : State) (id : WarpId) (wave : Fin 2) : State :=
  match s.warp? id with
  | none => s
  | some w =>
    match w.spill[wave], w.olderSlot wave with
    | e :: rest, some slot =>
      let va := w.entryVa e
      let link : List Nat := match rest.getLast? with | none => [] | some tail => [tail]
      let reqs : List LaneReq := (e :: link).map fun i => ⟨0, w.entryVa i, 0, 0, 16⟩
      if w.stopped || s.claimSaved (some id.teamId) || (s.privWaits w.asEvent .store reqs).isSome then s
      else
        let s := s.passTo (s.clock + (2048 - w.rotation[wave]))
        let r : State × Code × List Byte := (s.privDrain w .store reqs).privRead w va 16
        let code := spilledCode r.2.1 r.2.2
        if code != 0 then (r.1.focus id).stopOwnAccess code (w.spilledAt e) va false
        else
          let old := w.slots[slot].frag
          let links : List (Nat × List Byte) := link.map fun tail => (w.entryVa tail, splitBytes (.spilled (w.spilledAt tail)) (some e))
          let writes : List (Nat × List Byte) := (va, splitBytes (.spilled old) none) :: links
          match writes.find? fun p => r.1.privWriteCode w p.1 16 != 0 with
          | some p =>
            let c := r.1.privWriteCode w p.1 16
            ((r.1.privMet w [((0, p.1), c)]).focus id).stopOwnAccess c old p.1 true
          | none =>
            let now := s.clock
            let s := writes.foldl (fun s p => s.privWrite w p.1 p.2) r.1
            let f := spilledFrag r.2.2 now
            (s.unlatch id slot).setWarp id fun w =>
              { (w.setEntry e (.spilled old)).putSlot slot ⟨.live, f⟩ with
                spill := w.spill.set wave (rest ++ [e])
                rotation := w.rotation.set wave 0
                hold := w.hold.set slot none }
    | _, _ => s

/-- SPILL_ROTATION (R33). -/
def execSpillRotation (w : WarpId) (wave : Fin 2) (s : State) : Result := .next (s.rotate w wave)

/-! ### Returning accesses and page-ins (R84, R194) -/

/-- LOAD_DATA_RETURN (R194). -/
def execLoadDataReturn (w : WarpId) (n : Nat) (s : State) : Result := .next (s.loadReturn w n)

/-- STORE_ACKNOWLEDGED (R194). -/
def execStoreAcknowledged (w : WarpId) (n : Nat) (s : State) : Result := .next (s.storeAck w n)

/-- An instruction or a copy of the team waits for a page. -/
def State.pageWanted (s : State) (t : TeamId) (page : Nat) : Bool :=
  (s.warps.any fun w => w.id.teamId == t && (w.hold.toList.any fun h => match h with | some (.pageIn ps) => ps.contains page | _ => false)) ||
    s.copies.any fun c => c.warp.teamId == t && !c.performed && (s.copyAwaits c).contains page

/-- SCRATCHPAD_PAGE_IN_COMPLETE (R84). -/
def execScratchpadPageInComplete (t : TeamId) (page : Nat) (s : State) : Result :=
  .next (if s.pageWanted t page then s.pageIn t page else s)

/-! ### Instruction fetch (R97, R102, R175) -/

/-- First byte of a code block. -/
def blockOf (pc : Addr) : Nat := pc.toNat / 32 * 32

/-- The block of an address in the core's instruction buffer, fetched for the warp's own grid. -/
def State.codeBlock (s : State) (w : Warp) (pc : Addr) : Option CodeBlock :=
  (s.core w.core).ibuf.find? fun b => b.ctx == w.id.ctx && b.grid == w.id.grid && b.addr == blockOf pc

/-- The eight words of 32 bytes. -/
def blockWords (b : List Byte) : List Word := (List.range 8).map fun i => BitVec.ofNat 32 (leAt b (4 * i) 4)

/-- A core keeps the 512 blocks that it has fetched most recently (R175). -/
def State.keepCode (s : State) (core : CoreId) (b : CodeBlock) : State := s.setCore core fun k => { k with ibuf := (b :: k.ibuf).take 512 }

/-- The block that a slot needs lies where no link can carry the fetch, and 10 ms have not passed yet (R364). -/
def State.fetchWaits (s : State) (w : Warp) (slot : Fin 2) : Bool :=
  match s.translate (.core w.core) w.id.ctx .fetch w.super (blockOf w.slots[slot].frag.pc) with
  | .error _ => false
  | .ok ha => !s.reachable ha && !s.linkLost w slot

/-- INSTRUCTION_FETCH (R102): the fragment's block enters the instruction buffer of 512 blocks, or the fault is raised at its program
counter; a fetch that no link can carry waits (R364). -/
def State.fetch (s : State) (id : WarpId) (slot : Fin 2) : State :=
  match s.warp? id with
  | none => s
  | some w =>
    if w.slots[slot].st != .live || w.stopped || (s.codeBlock w w.slots[slot].frag.pc).isSome then s
    else if s.fetchWaits w slot then
      s.setWarp id fun w => { w with hold := w.hold.set slot (some .link), linkWait := w.linkWait.set slot (some (w.linkWait[slot].getD s.clock)) }
    else
      let pc := w.slots[slot].frag.pc
      let fail (s : State) (c : Code) : State :=
        let s := (s.focus id).setW fun w => { w with cur := slot }
        s.raise { code := c, mask := s.mask, va := pc.toNat, fetch := true }
      match s.translate (.core w.core) id.ctx .fetch w.super (blockOf pc) with
      | .error c => (fail s c).walkMet id.ctx c (blockOf pc)
      | .ok ha =>
        let c := s.sectorCode id.ctx ha 32
        let s := (s.touch (.core w.core) id.ctx (blockOf pc) false).sectorFill id.ctx ha 32
        if c != 0 then fail s c
        else
          s.keepCode w.core ⟨id.ctx, id.grid, blockOf pc, blockWords (s.mem.readBytes ha 32)⟩

/-- INSTRUCTION_FETCH (R102). -/
def execInstructionFetch (w : WarpId) (slot : Fin 2) (s : State) : Result := .next (s.fetch w slot)

/-- When the last warp of a grid leaves a core, the core drops the grid's blocks (R175); the warps of saved teams are on no core. -/
def State.dropCode (s : State) (core : CoreId) (ctx grid : Nat) : State :=
  if s.warps.any fun w => w.core == core && w.id.ctx == ctx && w.id.grid == grid && !s.claimSaved (some w.id.teamId) then s
  else s.setCore core fun k => { k with ibuf := k.ibuf.filter fun b => !(b.ctx == ctx && b.grid == grid) }

/-! ### Retirement (R17, R74, R264) -/

/-- First and last byte after the largest private area that a warp can have had (R87): a variant that it has left may have had a larger one. -/
def Warp.privRange (w : Warp) : Nat × Nat := (w.privBase, w.privBase + 533504)

/-- The private lines of a warp are dropped from L1 (R74). -/
def State.dropPrivate (s : State) (w : Warp) : State :=
  let (lo, hi) := w.privRange
  let pages := (rangeFrom (lo / 4096) ((hi + 4095) / 4096 - lo / 4096)).filterMap fun p =>
    match s.walk w.id.ctx (4096 * p) with
    | .ok l => some (4096 * p, l.home (4096 * p))
    | .error _ => none
  let own (ha : Nat) : Bool := pages.any fun p => decide (p.2 ≤ ha) && decide (ha < p.2 + 4096) && decide (lo ≤ p.1 + (ha - p.2)) && decide (p.1 + (ha - p.2) < hi)
  { s with l1 := s.l1.filter fun x => !(x.core == w.core && x.ctx == w.id.ctx && x.priv && own x.ha) }

/-- All of a warp's work is over (R17): every thread has exited, or it is stopped, and nothing of it is outstanding. A warp in a save record
goes on only after its restore (R338). -/
def State.retirable (s : State) (w : Warp) : Bool :=
  ((w.allExited && !s.claimSaved (some w.id.teamId)) || w.stopped) && w.loads.isEmpty && !(s.stores.any fun p => p.warp == w.id && !p.acked) &&
    w.copyBatches.isEmpty && (w.stopped || w.tileBatches.isEmpty) && !(s.copies.any fun c => c.warp == w.id) &&
    (w.stopped || (w.openOps.isEmpty && !w.super))

/-- The team's last warp has retired (R264): the team leaves its core and the live-teams count falls, and a grid without teams awaits its
children (R259); a checkpoint follows, so that no rollback undoes the retirement
(log 17). -/
def State.teamEnds (s : State) (t : Team) : State :=
  let s := s.teamRetire t
  let s := s.setGrid t.id.ctx t.id.grid fun g =>
    { g with teamsLive := g.teamsLive - 1, status := if g.status == 1 && g.teamsLive == 1 && g.children != 0 then 2 else g.status }
  let s := State.retireGrids (s.grids.length + 1) s
  s.checkpoint t.id.ctx

/-- WARP_RETIRE (R17). -/
def State.retireWarp (s : State) (id : WarpId) : State :=
  match s.warp? id with
  | none => s
  | some w =>
    if !s.retirable w then s
    else
      let s := (((s.dropPrivate w).removeWarp id).dropCode w.core id.ctx id.grid).keepLog id.ctx w.logBytes
      let s := s.setTeam id.teamId fun t => { t with retired := t.retired ++ [id.warp] }
      match s.team? id.teamId, s.grid? id.ctx id.grid with
      | some t, some g =>
        if g.status == 3 then s.settle
        else if t.warps ≤ t.retired.length then s.teamEnds t
        else s
      | _, _ => s

/-- WARP_RETIRE (R17). -/
def execWarpRetire (w : WarpId) (s : State) : Result := .next (s.retireWarp w)

end Sys2Proof.Machine
end

