-- ==== Sys2Proof/Machine/Distributor.lean ====
section
/-!
DEFINITION. The distributor: register blocks and room on cores (R9, R24, R26, R305), placing teams (R304 to R309, R319), the compaction
unit (R26), switch requests (R320), variant switches (R27, R343 to R345) and migration (R340 to R342).
-/

namespace Sys2Proof.Machine

/-! ### Register blocks (R24, R26) -/

/-- A register block on a shuttle file: whose it is, its shuttle, base and size; a pinned one is never moved (R26). -/
structure Block where
  warp : WarpId
  shuttle : Nat
  base : Nat
  size : Nat
  pinned : Bool
  deriving DecidableEq, Repr

/-- Blocks overlap. -/
def Block.meets (b : Block) (base size : Nat) : Bool := decide (base < b.base + b.size) && decide (b.base < base + size)

/-- The lowest aligned free base for a block of a size among the blocks of one file of 512 registers. -/
def freeBase (bs : List Block) (size : Nat) : Option Nat :=
  ((List.range (512 / size)).map (· * size)).find? fun b => !(bs.any fun x => x.meets b size)

/-- The shuttle of warp w of a team from shuttle h (R9). -/
def shuttleOf (h w : Nat) : Nat := (h + w) % 8

/-- The warps of a team that have not retired. -/
def State.warpsOfTeam (s : State) (id : TeamId) : List Warp := s.warps.filter fun w => w.id.teamId == id

/-- The blocks that the resident warps of a core hold. -/
def State.heldBlocks (s : State) (core : CoreId) : List Block :=
  (s.warps.filter fun w => w.core == core && !(((s.team? w.id.teamId).map fun t => t.st == .saved).getD false)).map fun w =>
    ⟨w.id, w.shuttle, w.blockBase, w.valloc, !w.leases.isEmpty⟩

/-- Blocks for warps one after another, each at the lowest free base of its shuttle with fewer than 8 warps (R6, R9). -/
def allocate : List Block → List (WarpId × Nat × Nat) → Option (List Block)
  | _, [] => some []
  | taken, (id, shuttle, size) :: rest =>
    let file := taken.filter fun b => b.shuttle == shuttle
    if 8 ≤ file.length then none
    else
      match freeBase file size with
      | none => none
      | some base =>
        let b : Block := ⟨id, shuttle, base, size, true⟩
        (allocate (b :: taken) rest).map (b :: ·)

/-- What the warps of a team need on a core from shuttle h. -/
def State.teamNeeds (s : State) (t : Team) (h : Nat) : List (WarpId × Nat × Nat) :=
  (s.warpsOfTeam t.id).map fun w => (w.id, shuttleOf h w.id.warp, w.valloc)

/-- The teams on their way to a core (R341). -/
def State.arriving (s : State) (core : CoreId) : List (Team × Nat) :=
  s.teams.filterMap fun t => match t.st with | .migrating c h _ => if c == core then some (t, h) else none | _ => none

/-- All blocks of a core: those held, and those kept free for arriving teams. -/
def State.blocks (s : State) (core : CoreId) : List Block :=
  (s.arriving core).foldl (fun bs a => (((allocate bs (s.teamNeeds a.1 a.2)).getD []) ++ bs)) (s.heldBlocks core)

/-- Teams that use a core's barriers and scratchpad. -/
def State.residents (s : State) (core : CoreId) : List Team :=
  (s.teams.filter fun t => t.core == core && t.st != .saved) ++ (s.arriving core).map (·.1)

/-- Barriers and declared scratchpad of more resident work fit on the core (R305). -/
def State.sharedFits (s : State) (core : CoreId) (barriers spad : Nat) : Bool :=
  let r := s.residents core
  decide ((r.foldl (fun n t => n + t.barriers.length) 0) + barriers ≤ 1024) && decide ((r.foldl (fun n t => n + t.spadDecl) 0) + spad ≤ 4 * 2 ^ 20)

/-- No shuttle file that the warps need is being compacted. -/
def State.quiet (s : State) (core : CoreId) (need : List (WarpId × Nat × Nat)) : Bool :=
  match (s.core core).compacting with
  | none => true
  | some (k, _) => need.all fun n => n.2.1 != k

/-- The lowest starting shuttle from which warps of a size fit on a core, with their blocks (R9, R306). -/
def State.seat (s : State) (core : CoreId) (need : Nat → List (WarpId × Nat × Nat)) : Option (Nat × List Block) :=
  let bs := s.blocks core
  (List.range 8).findSome? fun h => if s.quiet core (need h) then (allocate bs (need h)).map fun r => (h, r) else none

/-- What a new team of a variant needs. -/
def newNeeds (t : TeamId) (v : Variant) (h : Nat) : List (WarpId × Nat × Nat) :=
  (List.range v.warps).map fun w => (⟨t.ctx, t.grid, t.team, w⟩, shuttleOf h w, blockSize v.regs)

/-- The lowest free team slot of a context (R305). -/
def State.freeTeamSlot (s : State) (ctx : Nat) : Option Nat :=
  leastBelow (((s.ctx? ctx).map (·.teamSlots)).getD 0) fun j => !(s.teams.any fun t => t.id.ctx == ctx && t.slot == j)

/-- Variant v of a new team fits a core (R305). -/
def State.fits (s : State) (core : CoreId) (t : TeamId) (v : Variant) : Option (Nat × List Block) :=
  if s.sharedFits core v.barriers v.spad then s.seat core (newNeeds t v) else none

/-! ### Compaction (R26) -/

/-- New bases that leave an aligned region free, if the blocks other than pinned ones can be moved out of it: larger blocks first. -/
def repack (file : List Block) (size : Nat) : Option (Nat × List (WarpId × Nat)) :=
  let fixed := file.filter (·.pinned)
  let loose := sortBy (fun a b => decide (b.size < a.size)) (file.filter fun b => !b.pinned)
  ((List.range (512 / size)).map (· * size)).findSome? fun r =>
    if fixed.any fun x => x.meets r size then none
    else
      let region : Block := ⟨⟨0, 0, 0, 0⟩, 0, r, size, true⟩
      let start : Option (List Block) := some (region :: fixed)
      let placed := loose.foldl (fun acc b => acc.bind fun bs => (freeBase bs b.size).map fun base => { b with base := base } :: bs) start
      placed.map fun bs => (r, (loose.filterMap fun b => (bs.find? fun x => x.warp == b.warp && !x.pinned).bind fun x =>
        if x.base == b.base then none else some (b.warp, x.base)))

/-- The blocks after moves. -/
def moved (bs : List Block) (moves : List (WarpId × Nat)) : List Block :=
  bs.map fun b => match moves.find? fun m => m.1 == b.warp with | some m => { b with base := m.2 } | none => b

/-- The files that must be compacted, with the moves, so that all needs can be met; none when moves would not do, since some file lacks a
place or the registers, or a block is in the way that is not moved (R26's "only because"). -/
def compactPlan : List Block → List (WarpId × Nat × Nat) → Option (List (Nat × List (WarpId × Nat)))
  | _, [] => some []
  | taken, (id, shuttle, size) :: rest =>
    let file := taken.filter fun b => b.shuttle == shuttle
    if 8 ≤ file.length || 512 < (file.map (·.size)).sum + size then none
    else
      match freeBase file size with
      | some base => compactPlan (⟨id, shuttle, base, size, true⟩ :: taken) rest
      | none => (repack file size).bind fun r => (compactPlan (⟨id, shuttle, r.1, size, true⟩ :: moved taken r.2) rest).map ((shuttle, r.2) :: ·)

/-- The first file that must be compacted so that all needs can be met: the unit moves one file at a time (R26). -/
def compactFor (blocks : List Block) (needs : List (WarpId × Nat × Nat)) : Option (Nat × List (WarpId × Nat)) :=
  (compactPlan blocks needs).bind (·.head?)

/-- The compaction unit of the core begins to compact a file (R26), with the core's blocks as they stand or would stand. -/
def State.startCompaction (s : State) (core : CoreId) (blocks : List Block) (need : Nat → List (WarpId × Nat × Nat)) : Option State :=
  if (s.core core).compacting.isSome then none
  else ((List.range 8).findSome? fun h => compactFor blocks (need h)).map fun r => s.setCore core fun c => { c with compacting := some r }

/-- Blocks take new bases. -/
def State.moveBlocks (s : State) (moves : List (WarpId × Nat)) : State :=
  moves.foldl (fun s m => s.setWarp m.1 fun w => { w with blockBase := m.2 }) s

/-- The moves of the warps whose blocks are still in a file of a core: those that have been saved or have left meanwhile are not moved. -/
def State.movesLeft (s : State) (core : CoreId) (shuttle : Nat) (moves : List (WarpId × Nat)) : List (WarpId × Nat) :=
  moves.filter fun m => (s.warp? m.1).any fun w => w.core == core && w.shuttle == shuttle && !s.claimSaved (some w.id.teamId)

/-- REGISTER_COMPACTION_END (R26): the moved warps issue again. -/
def execRegisterCompactionEnd (part core shuttle : Nat) (s : State) : Result :=
  let id : CoreId := ⟨part, core⟩
  .next (match (s.core id).compacting with
    | none => s
    | some (k, moves) => if k != shuttle then s else (s.moveBlocks (s.movesLeft id k moves)).setCore id fun c => { c with compacting := none })

/-! ### Placing a team (R9, R10, R31, R87, R261) -/

/-- A warp takes a place on a shuttle; without an active warp there it becomes active at once (R21). -/
def State.settleWarp (s : State) (w : Warp) : State :=
  let idle := !(s.warps.any fun x => x.core == w.core && x.shuttle == w.shuttle && x.active)
  let w := { w with active := idle, pendingSince := s.nextId, count := 0 }
  let s := { s with nextId := s.nextId + 1 }
  if s.w.present then { s with rest := s.rest ++ [w] } else { s with w := w }

/-- A new warp (R10): everything zero, one fragment at the entry with its threads, or one for each legacy wave that has threads (R31). -/
def newWarp (id : WarpId) (core : CoreId) (g : Grid) (v : Variant) (slot : Nat) (region : Nat) (b : Block) (mask : Mask) (entry : Addr) (now : Nat) :
    Warp :=
  let frag (m : Mask) : Slot := if m = 0#32 then ⟨.empty, Fragment.none⟩ else ⟨.live, ⟨entry, m, 0, none, now⟩⟩
  { Warp.vacant with
    id := id, present := true, core := core, shuttle := b.shuttle, valloc := b.size, blockBase := b.base, level := g.level
    display := Vector.ofFn fun i => (g.display[i.val]?).getD ⟨0, 0⟩
    slots := if g.legacy then #v[frag (mask &&& 0xFFFF#32), frag (mask &&& 0xFFFF0000#32)] else #v[frag mask, ⟨.empty, Fragment.none⟩]
    exited := ~~~mask, legacy := g.legacy, hinted := g.hinted
    privBase := region + (32 * slot + id.warp) * 2 ^ 20, privsz := v.privsz }

/-- A placement, as it becomes part of the latest checkpoint, so that a rollback brings the team back to its start. -/
def State.notePlacement (s : State) (id : TeamId) : State :=
  match s.team? id with
  | none => s
  | some t =>
    let ws := s.warpsOfTeam id
    s.setCtx id.ctx fun c => { c with snapshot := { c.snapshot with teams := c.snapshot.teams ++ [t], warps := c.snapshot.warps ++ ws } }

/-- Place the next team of a grid on a core (R9, R10, R284). -/
def State.placeOn (s : State) (g : Grid) (core : CoreId) (ix : Nat) (v : Variant) (slot h : Nat) (bs : List Block) : State :=
  let id : TeamId := ⟨g.ctx, g.id, g.nextTeam⟩
  let region := ((s.ctx? g.ctx).map (·.privRegion)).getD 0
  let t : Team :=
    { id := id, core := core, h := h, variant := ix, slot := slot, warps := v.warps, order := s.nextId, spadDecl := v.spad,
      spadsz := spadSize v.spad, privsz := v.privsz,
      barriers := List.replicate v.barriers ⟨0, 0, 0⟩, pages := [], slotMap := [], accMap := [], joinSet := [], request := none, st := .running,
      retired := [], saveHas := [], saveOk := true }
  let s := { s with teams := s.teams ++ [t], nextId := s.nextId + 1 }
  let s := s.l1Clear core (some g.ctx)
  let s := bs.foldl (fun s b => s.settleWarp (newWarp b.warp core g v slot region b g.firstMask v.entry s.clock)) s
  let s := { s with grids := mapWhere (fun x => x.ctx == g.ctx && x.id == g.id) (fun x => { x with nextTeam := x.nextTeam + 1 }) s.grids }
  let s := s.setCore core fun c => { c with freeSince := s.clock }
  (s.setPart core.part fun p => { p with prevCore := some core.n }).notePlacement id

/-- Logical cores that a change of a place table concerns (R354, R359): one core, or the four of a cluster. -/
def PlaceWrite.cores (c : PlaceWrite) : List Nat :=
  match c.table with
  | .core => [c.entry.logical]
  | .cluster => rangeFrom (4 * c.entry.logical) 4
  | .engine => []

/-- The compute cores on which a team may be placed, or to which it may migrate: during a role change, not those of a ply that leaves the compute
role (R353), and not those of a waiting change of a place table, which their teams leave first (R340, R359). -/
def State.placeCores (s : State) (part : Nat) : List Nat :=
  (s.computeCores part).filter fun n =>
    (match s.sluice.change with | none => true | some c => c.new.getLsbD (s.plyOf ⟨part, n⟩)) &&
      !(s.sluice.pendingPlaces.any fun c => c.part == part && c.cores.contains n)

/-- The core has as many free slots and accumulators as the team has claimed (R341). -/
def State.claimsFit (s : State) (core : CoreId) (t : Team) : Bool :=
  let c := s.core core
  decide (t.slotMap.length ≤ (c.slots.toList.filter fun x => x.claim.isNone).length) &&
    decide (t.accMap.length ≤ (c.accs.toList.filter fun x => x.claim.isNone).length)

/-- Room for a resident team on another core, in its current variant (R305, R341). -/
def State.roomFor (s : State) (core : CoreId) (t : Team) : Option (Nat × List Block) :=
  if s.sharedFits core t.barriers.length t.spadDecl && s.claimsFit core t then s.seat core fun h => s.teamNeeds t h else none

/-- The core that a saved team left is one on which it may be placed: it keeps its `coreid` (R354). -/
def State.staysOn (s : State) (t : Team) : Bool := (s.placeCores t.core.part).contains t.core.n

/-- A saved team of the function whose turn it is may return to the core that it left, where it fits. -/
def State.mayReturn (s : State) (t : Team) : Bool :=
  t.st == .saved && s.staysOn t && ((s.ctx? t.id.ctx).any fun c => !c.failed && (s.part? t.core.part).bind (·.turn) == some c.vf) &&
    (s.roomFor t.core t).isSome

/-- Copies of a saved team have not completed (R337). -/
def State.awaitsCopies (s : State) (t : Team) : Bool := t.st == .saved && s.copies.any fun c => c.warp.teamId == t.id

/-- The cores to which saved teams will return (R354): nothing else takes them meanwhile. A cooperative grid returns whole (R275). -/
def State.owedCores (s : State) (part : Nat) : List CoreId :=
  ((s.teams.filter fun t => t.core.part == part && s.mayReturn t).filter fun t =>
    !((s.grid? t.id.ctx t.id.grid).any (·.coop)) ||
      (let all := s.teams.filter fun x => x.id.ctx == t.id.ctx && x.id.grid == t.id.grid
       all.all s.mayReturn || all.any s.awaitsCopies)).map (·.core)

/-- The cores of `placeCores` to which no saved team returns, in the distributor's order: from the core after the previous placement, wrapping round
(R306); before any placement from the lowest. -/
def State.scanOrder (s : State) (part : Nat) : List CoreId :=
  let owed := s.owedCores part
  let cs := (s.placeCores part).filter fun n => !owed.contains ⟨part, n⟩
  match (s.part? part).bind (·.prevCore) with
  | none => cs.map fun n => ⟨part, n⟩
  | some prev => ((cs.filter fun n => decide (prev < n)) ++ cs.filter fun n => decide (n ≤ prev)).map fun n => ⟨part, n⟩

/-- Variants with their places in the order of preference. -/
def indexed {α : Type} (l : List α) : List (Nat × α) := (List.range l.length).zip l

/-- The first variant that fits some core, and the first such core, for a team (R306). -/
def State.choose (s : State) (part : Nat) (id : TeamId) (vs : List Variant) : Option (CoreId × Nat × Variant × Nat × List Block) :=
  (indexed vs).findSome? fun v => (s.scanOrder part).findSome? fun c => (s.fits c id v.2).map fun r => (c, v.1, v.2, r.1, r.2)

/-- Place the next team of a grid, if it fits. -/
def State.placeNext (s : State) (part ctx grid : Nat) : Option State :=
  match s.grid? ctx grid with
  | none => none
  | some g =>
    match s.freeTeamSlot ctx, s.choose part ⟨ctx, grid, g.nextTeam⟩ g.variants with
    | some j, some (c, ix, v, h, bs) => some (s.placeOn g c ix v j h bs)
    | _, _ => none

/-- Place `n` teams of a grid together, or none (R275, R307). -/
def State.placeAll (s : State) (part ctx grid : Nat) : Nat → Option State
  | 0 => some s
  | n + 1 => (s.placeNext part ctx grid).bind fun s => s.placeAll part ctx grid n

/-- What granting a source comes to. -/
inductive Attempt where
  | placed (s : State)
  /-- A task without a valid kernel leaves the ready queue (R319). -/
  | dropped (s : State)
  /-- It waits: its team fits nowhere, or, where `nofit` is false, no frame is free for it. -/
  | waits (nofit : Bool)

/-- Grant a pending grid. -/
def State.grantGrid (s : State) (part : Nat) (g : Grid) : Attempt :=
  match (if g.coop then s.placeAll part g.ctx g.id (g.teams - g.nextTeam) else s.placeNext part g.ctx g.id) with
  | some s => .placed s
  | none => .waits true

/-- The task's entry: bytes, and the address of its state. -/
def State.taskEntry (s : State) (ctx i : Nat) : Option (Nat × List Byte) :=
  ((s.ctx? ctx).bind (·.taskTable)).bind fun t => (s.frontRead ctx (t.1 + 32 * i) 32).map fun b => (t.1 + 32 * i, b)

/-- Write the state of a task. -/
def State.setTaskState (s : State) (ctx i st : Nat) : State :=
  match s.taskEntry ctx i with
  | none => s
  | some (va, _) => (s.unitWrite ctx (va + 19) (leBytes 1 st)).1

/-- The task leaves the ready queue. -/
def State.unready (s : State) (ctx i : Nat) : State := s.setCtx ctx fun c => { c with ready := c.ready.filter fun r => r.1 != i }

/-- Grant the head of a ready queue (R263, R319): the task grid is created and its team placed, when its class has a frame and it fits. -/
def State.grantTask (s : State) (part ctx i level : Nat) : Attempt :=
  match s.taskEntry ctx i with
  | none => .dropped (s.unready ctx i)
  | some (_, b) =>
    match s.kernel ctx (leAt b 0 8) with
    | none => .dropped (((s.unitReads ctx (s.kernelReads ctx 5 (leAt b 0 8))).unready ctx i).setTaskState ctx i 0)
    | some k =>
      let size := leAt b 20 4
      match s.freeFrame ctx (frameClass size) with
      | none => .waits false
      | some f =>
        let r : GridRequest :=
          { ctx := ctx, parent := none, launcher := none, descriptor := leAt b 0 8, size := size, teams := 1, coop := false, level := 0,
            display := [], parentFrame := 0, source := .tasks ctx, prio := level, packet := none, task := some i, mask := 0xFFFFFFFF#32,
            contents := leBytes 8 i ++ leBytes 8 (leAt b 8 8) }
        let q := s.createGrid r k f
        match q.1.placeNext part ctx q.2 with
        | none => .waits true
        | some s => .placed (((s.unitReads ctx (s.kernelReads ctx 5 (leAt b 0 8))).unready ctx i).setTaskState ctx i 3)

/-! ### Sources and grants (R304, R308, R309) -/

/-- What a source offers. -/
inductive Candidate where
  | grid (g : Grid)
  | task (ctx i level : Nat)
  deriving DecidableEq, Repr

/-- Which candidate it is. -/
def Candidate.id : Candidate → CandidateId
  | .grid g => ⟨g.source, g.id, g.nextTeam⟩
  | .task ctx i _ => ⟨.tasks ctx, 0, i⟩

/-- Level of a candidate (R304). -/
def Candidate.level : Candidate → Nat
  | .grid g => g.prio
  | .task _ _ l => l

/-- Where a source stands in the order of queue numbers, nodes and tasks behind the queues (R308, R322). -/
def Source.rank : Source → Nat
  | .queue _ q => q
  | .node ctx n => 256 + ctx * 4096 + n
  | .tasks ctx => 256 + 4096 * 4096 + ctx

/-- Weight and aging limit of a source (R295, R308, R309). -/
def State.terms (s : State) : Source → Nat × Nat
  | .queue vf q => (((s.vf? vf).bind fun v => v.queues.find? fun x => x.n == q).map fun x => (x.weight, x.aging)).getD (1, 1024)
  | _ => (1, 1024)

/-- A context of the function whose teams may be placed. -/
def State.mayPlace (s : State) (vf ctx : Nat) : Bool := ((s.ctx? ctx).map fun c => c.vf == vf && !c.failed && !c.savedOut).getD false

/-- Sources of a function that have a candidate: the oldest pending grid, or the head of a ready queue (R304, R319). Where grids of the task source
pend, children of its tasks, both rules name its candidate: here the oldest pending grid goes before the head of the ready queue; the model's
choice (log 77). -/
def State.candidates (s : State) (vf : Nat) : List (Source × Candidate) :=
  let pending := s.grids.filter fun g => decide (g.nextTeam < g.teams) && g.status == 1 && s.mayPlace vf g.ctx
  let first := pending.foldl (fun (acc : List (Source × Grid)) g =>
    match acc.find? fun a => a.1 == g.source with
    | none => acc ++ [(g.source, g)]
    | some a => if g.order < a.2.order then mapWhere (fun x => x.1 == g.source) (fun x => (x.1, g)) acc else acc) []
  let tasks := s.ctxs.filterMap fun c =>
    match c.ready, c.taskTable with
    | t :: _, some (_, _, level) =>
      if s.mayPlace vf c.id && !(first.any fun f => f.1 == .tasks c.id) then some (Source.tasks c.id, Candidate.task c.id t.1 level) else none
    | _, _ => none
  sortBy (fun a b => decide (a.1.rank < b.1.rank)) ((first.map fun f => (f.1, Candidate.grid f.2)) ++ tasks)

/-- How a source has been treated; a source not met before starts at nothing. -/
def Vf.grant (v : Vf) (x : Source) : Grant := (v.grants.find? fun g => g.source == x).getD ⟨x, 0, none, 0⟩

/-- The sources of one level in the order of the weighted round-robin (R308), each with what it offers. -/
def State.roundRobin {α : Type} (s : State) (v : Vf) (level : Nat) (l : List (Source × α)) : List (Source × α) :=
  match v.pointers.find? fun q => q.1 == level with
  | none => l
  | some (_, x) =>
    let start := if (v.grant x).used < (s.terms x).1 then x.rank else x.rank + 1
    (l.filter fun c => decide (start ≤ c.1.rank)) ++ l.filter fun c => decide (c.1.rank < start)

/-- The order in which the sources of a function are served (R308): aged ones, earliest first, then by level. -/
def State.grantOrder {α : Type} (s : State) (v : Vf) (level : α → Nat) (l : List (Source × α)) : List (Source × α) :=
  let age (c : Source × α) : Nat := (v.grant c.1).aged.getD 0
  let aged := sortBy (fun a b => decide (age a < age b)) (l.filter fun c => (v.grant c.1).aged.isSome)
  let fresh := l.filter fun c => (v.grant c.1).aged.isNone
  aged ++ (List.range 8).reverse.flatMap fun k => s.roundRobin v k (fresh.filter fun c => level c.2 == k)

/-- Grant one candidate. -/
def State.attempt (s : State) (part : Nat) : Candidate → Attempt
  | .grid g => s.grantGrid part g
  | .task ctx i level => s.grantTask part ctx i level

/-- A grant is counted (R308, R309): the source's turn and its restart, and the passing over of the function's other candidates. -/
def State.count (s : State) (vf : Nat) (x : Source) (level : Nat) (all : List (Source × Candidate)) : State :=
  match s.vf? vf with
  | none => s
  | some v =>
    let me := v.grant x
    let aged := me.aged.isSome
    let turn := (v.pointers.find? fun q => q.1 == level).map (·.2) == some x && decide (me.used < (s.terms x).1)
    let mine : Grant := if aged then { me with passed := 0, aged := none } else ⟨x, 0, none, if turn then me.used + 1 else 1⟩
    let others := ((indexed (all.filter fun c => c.1 != x)).map fun c =>
      let g := v.grant c.2.1
      let n := g.passed + 1
      if g.aged.isNone && decide ((s.terms c.2.1).2 ≤ n) then { g with passed := n, aged := some (s.nextId + c.1) } else { g with passed := n })
    let absent := v.grants.filter fun g => !(all.any fun c => c.1 == g.source)
    let pointers := if aged then v.pointers else (level, x) :: v.pointers.filter fun q => q.1 != level
    { s with nextId := s.nextId + all.length }.setVf vf fun v => { v with grants := mine :: others ++ absent, pointers := pointers }

/-- Offer the grant to the sources in order (R308, R309): the state after it, and the aged sources whose teams fit nowhere. `floor`
is the level that their reservations hold back, one more than it. Two points the rules leave open: an aged source whose team fits is placed, though
a source that aged later, of the same or a higher level, stands reserved, since R308 serves the aged ones in the order of their aging; and an aged task
source for whose class no frame is free counts neither as one whose team fits nowhere nor as reserved. Both are the model's choice (log 75). -/
def State.offer (s : State) (part vf : Nat) (all : List (Source × Candidate)) :
    List (Source × Candidate) → Nat → List (Source × Candidate) → Option State × List (Source × Candidate)
  | [], _, held => (none, held)
  | (x, c) :: more, floor, held =>
    let aged := ((s.vf? vf).map fun v => (v.grant x).aged.isSome).getD false
    if c.level < floor && !aged then s.offer part vf all more floor held
    else
      match s.attempt part c with
      | .placed t => if c.level < floor then s.offer part vf all more floor held else (some (t.count vf x c.level all), held)
      | .dropped t => (some t, held)
      | .waits nofit =>
        if aged && nofit then s.offer part vf all more (max floor (c.level + 1)) (held ++ [(x, c)]) else s.offer part vf all more floor held

/-! ### Shapes of a resident team (R27, R320, R345) -/

/-- Where the blocks of a team go when it takes a variant's size: in place where the block allows, else the lowest free base, else after a
compaction of the file (R27); with the moves of other blocks. -/
def reseat (h : Nat) (size : Nat) : List WarpId → List Block → List Block → Option (List Block × List (WarpId × Nat))
  | [], _, _ => some ([], [])
  | id :: rest, old, taken =>
    let k := shuttleOf h id.warp
    let file := taken.filter fun b => b.shuttle == k
    if 8 ≤ file.length then none
    else
      let put (base : Nat) (moves : List (WarpId × Nat)) : Option (List Block × List (WarpId × Nat)) :=
        let b : Block := ⟨id, k, base, size, true⟩
        (reseat h size rest old (b :: moved taken moves)).map fun r => (b :: r.1, moves ++ r.2)
      let home := (old.find? fun b => b.warp == id).map fun b => b.base / size * size
      match home.filter fun b => !(file.any fun x => x.meets b size) with
      | some b => put b []
      | none =>
        match freeBase file size with
        | some b => put b []
        | none =>
          match repack file size with
          | some (b, moves) => put b moves
          | none => none

/-- The warps of a team in a variant: those that have not retired, or at a reshape every number below the new count (R252, R344). -/
def State.shapeWarps (s : State) (t : Team) (v : Variant) (reshape : Bool) : List WarpId :=
  if reshape then (List.range v.warps).map fun w => ⟨t.id.ctx, t.id.grid, t.id.team, w⟩ else (s.warpsOfTeam t.id).map (·.id)

/-- The blocks of a team's warps in a variant, with the moves of other blocks, where its core holds the variant's barriers, scratchpad and
registers. -/
def State.reseated (s : State) (t : Team) (v : Variant) (reshape : Bool) : Option (List Block × List (WarpId × Nat)) :=
  let all := s.blocks t.core
  let own := all.filter fun b => b.warp.teamId == t.id
  let others := all.filter fun b => b.warp.teamId != t.id
  let s' := { s with teams := s.teams.filter fun x => x.id != t.id }
  if !(s'.sharedFits t.core v.barriers v.spad) then none else reseat t.h (blockSize v.regs) (s.shapeWarps t v reshape) own others

/-- Registers below a number have entries in the undo region (R334). -/
def WarpLog.block' (l : WarpLog) (size : Nat) : WarpLog := { l with vectors := l.vectors ||| BitVec.ofNat 256 (2 ^ size - 1) }

/-- The team takes a variant's resources on its core (R345): its blocks, barriers and scratchpad. None when it does not fit. A block that is
given up counts as written, and the undo entries of warps and pages that go stay (R334). -/
def State.resize (s : State) (t : Team) (ix : Nat) (v : Variant) (reshape : Bool) : Option State :=
    (s.reseated t v reshape).map fun (r : List Block × List (WarpId × Nat)) =>
      let s : State := s.moveBlocks r.2
      let s : State := r.1.foldl (fun s b => s.setWarp b.warp fun w => { w with blockBase := b.base, valloc := b.size, logged := w.logged.block' w.valloc }) s
      let region := ((s.ctx? t.id.ctx).map (·.privRegion)).getD 0
      let fresh := r.1.filter fun b => (s.warp? b.warp).isNone
      let s : State := match s.grid? t.id.ctx t.id.grid with
        | none => s
        | some g => fresh.foldl (fun s b => s.settleWarp (newWarp b.warp t.core g v t.slot region b 0xFFFFFFFF#32 v.entry s.clock)) s
      let gone := ((s.warpsOfTeam t.id).filter fun w => reshape && decide (v.warps ≤ w.id.warp)).map (·.id)
      let s : State := gone.foldl (fun s id => match s.warp? id with | none => s | some w => ((s.dropPrivate w).removeWarp id).keepLog t.id.ctx w.logBytes) s
      let kept (p : Page) : Bool := decide (2048 * p.n < spadSize v.spad)
      let s : State := s.keepLog t.id.ctx ((t.pages.filter fun p => !kept p).filterMap fun p => p.logged.map fun core => (core, 2048))
      s.setTeam t.id fun t =>
        { t with variant := ix, warps := v.warps, spadDecl := v.spad, spadsz := spadSize v.spad, privsz := v.privsz, barriers := List.replicate v.barriers ⟨0, 0, 0⟩,
                 pages := t.pages.filter kept, retired := if reshape then [] else t.retired }

/-- The team as it would stand in a variant, for the choice of a request (R320). -/
def State.asIf (s : State) (t : Team) (ix : Nat) : Option State :=
  match s.variantOf t t.variant, s.variantOf t ix with
  | some old, some v => s.resize t ix v (old.warps != v.warps)
  | _, _ => none

/-- The next team that a candidate has to place, and its variants. -/
def State.nextTeam (s : State) : Candidate → Option (TeamId × List Variant)
  | .grid g => ((s.grid? g.ctx g.id).filter fun g => decide (g.nextTeam < g.teams)).map fun g => (⟨g.ctx, g.id, g.nextTeam⟩, g.variants)
  | .task ctx i _ => ((s.taskEntry ctx i).bind fun e => s.kernel ctx (leAt e.2 0 8)).map fun k => (⟨ctx, 0, 0⟩, k.variants)

/-- The candidate's next team would fit the core (R305). -/
def State.wouldFit (s : State) (core : CoreId) (c : Candidate) : Bool :=
  match s.nextTeam c with
  | none => false
  | some (id, vs) => (s.freeTeamSlot id.ctx).isSome && vs.any fun v => (s.fits core id v).isSome

/-- There is room for the candidate: on the core for its next team, or for a cooperative grid, whose teams are placed together, anywhere. -/
def State.roomIn (s : State) (core : CoreId) : Candidate → Bool
  | .grid g => if g.coop then (s.placeAll core.part g.ctx g.id (g.teams - g.nextTeam)).isSome else s.wouldFit core (.grid g)
  | c => s.wouldFit core c

/-- The earliest leaner variant of a team whose switch would leave room for a candidate (R320). -/
def State.leanerFor (s : State) (c : Candidate) (t : Team) : Option Nat :=
  let n := ((s.grid? t.id.ctx t.id.grid).map fun g => g.variants.length).getD 0
  (List.range n).find? fun ix => decide (t.variant < ix) && ((s.asIf t ix).map fun s => s.roomIn t.core c).getD false

/-- Post a switch request (R252, R320); a lean one for a reserved candidate. -/
def State.postRequest (s : State) (t : Team) (target : Nat) (candidate : Option CandidateId) : State :=
  let ws := (s.warpsOfTeam t.id).map (·.id.warp)
  s.setTeam t.id fun t =>
    { t with request := some { candidate := candidate, target := target, lean := candidate.isSome, posted := s.clock, warps := ws, point := none, arrived := [],
                               moved := false } }

/-- Level of a team's grid. -/
def State.teamLevel (s : State) (t : Team) : Nat := ((s.grid? t.id.ctx t.id.grid).map (·.prio)).getD 0

/-- A lean request for a reserved candidate (R320), unless one is outstanding: the resident team of lowest level, most recently placed, that
can leave room. R320 does not say what holds of a team for which a request is already posted: here it is passed over, for a lean and for a fat
request; the model's choice (log 76). -/
def State.postLean (s : State) (part : Nat) (c : Candidate) : State :=
  if s.teams.any fun t => t.request.any fun (r : SwitchReq) => r.candidate == some c.id then s
  else
    let able := s.teams.filter fun t => t.core.part == part && t.st == .running && t.request.isNone && decide (s.teamLevel t < c.level) &&
      (s.leanerFor c t).isSome
    let best := able.foldl (fun (b : Option Team) t =>
      match b with
      | none => some t
      | some x => if s.teamLevel t < s.teamLevel x || (s.teamLevel t == s.teamLevel x && decide (x.order < t.order)) then some t else some x) none
    match best with
    | none => s
    | some t =>
      match s.leanerFor c t with
      | none => s
      | some ix => s.postRequest t ix (some c.id)

/-- The teams of a cooperative grid that fit are seated in turn, to find the one that does not. -/
def State.placeMany (s : State) (part ctx grid : Nat) : Nat → State
  | 0 => s
  | n + 1 => match s.placeNext part ctx grid with | none => s | some s => s.placeMany part ctx grid n

/-- A compaction begins for the first candidate that it would help (R26): on a core with everything that a team needs but an aligned block.
The other teams of a cooperative grid count with the places that they would take, and no move touches those. -/
def State.compactForCandidates (s : State) (part : Nat) (l : List (Source × Candidate)) : Option State :=
  l.findSome? fun c =>
    let t := match c.2 with | .grid g => if g.coop then s.placeMany part g.ctx g.id (g.teams - g.nextTeam) else s | .task _ _ _ => s
    match t.nextTeam c.2 with
    | none => none
    | some (id, vs) =>
      if (t.freeTeamSlot id.ctx).isNone then none
      else
        vs.findSome? fun v => (t.scanOrder part).findSome? fun core =>
          if t.sharedFits core v.barriers v.spad then
            s.startCompaction core ((t.blocks core).map fun b => { b with pinned := b.pinned || (s.warp? b.warp).isNone }) (newNeeds id v)
          else none

/-- A candidate of the function whose turn it is fits the room on a core. -/
def State.candidateFits (s : State) (core : CoreId) : Bool :=
  match (s.part? core.part).bind (·.turn) with
  | none => false
  | some vf => (s.candidates vf).any fun c => s.wouldFit core c.2

/-- On cores whose room a candidate fits, fat requests are withdrawn, and the time without such a candidate starts anew (R320). Only a team that
does not run in the variant it prefers most can have such a request. -/
def State.dropFat (s : State) : State :=
  if s.teams.all fun t => t.variant == 0 then s
  else
    let fit := ((s.teams.map (·.core)).eraseDups).filter s.candidateFits
    let drop := (s.teams.filter fun t => fit.contains t.core && t.request.any fun (r : SwitchReq) => !r.lean).map (·.id)
    drop.foldl State.withdrawSwitch (fit.foldl State.roomChanged s)

/-- TEAM_PLACEMENT (R306 to R309, R319, R320): one grant of the partition's function whose turn it is; whether or not a team is placed, the
candidates that are reserved have their lean requests. -/
def State.placement (s : State) (part : Nat) : State :=
  match (s.part? part).bind fun p => p.turn.bind s.vf? with
  | none => s
  | some v =>
    if s.sluice.change.isSome then s
    else
      let all := s.candidates v.n
      let order := s.grantOrder v Candidate.level all
      let r := s.offer part v.n all order 0 []
      let hold (s : State) : State :=
        r.2.foldl (fun s c => s.postLean part c.2) (s.setVf v.n fun v => { v with reserved := r.2.map fun c => c.2.id })
      match r.1 with
      | some s => hold s
      | none =>
        let s := hold s
        let floor : Nat := r.2.foldl (fun n c => max n (c.2.level + 1)) 0
        let able := order.filter fun (c : Source × Candidate) => decide (floor ≤ c.2.level) || r.2.any fun h => h.1 == c.1
        (s.compactForCandidates part able).getD s

/-- TEAM_PLACEMENT (R306). -/
def execTeamPlacement (part : Nat) (s : State) : Result := .next (s.placement part)

/-- FAT_SWITCH_REQUEST (R320): after 50 µs of room that no candidate fits, the longest resident team that would fit in a variant it
prefers is asked to take it. -/
def State.fatRequest (s : State) (core : CoreId) : State :=
  let turn := (s.part? core.part).bind (·.turn)
  let posted := s.teams.any fun t => t.core == core && t.request.any fun (r : SwitchReq) => !r.lean
  if s.candidateFits core || posted || turn.isNone then s
  else
    let choice (t : Team) : Option Nat := (List.range t.variant).find? fun ix => (s.asIf t ix).isSome
    let able := s.teams.filter fun t => t.core == core && t.st == .running && t.request.isNone && (choice t).isSome
    let best := able.foldl (fun (b : Option Team) t => match b with | none => some t | some x => if t.order < x.order then some t else some x) none
    match best with
    | none => s
    | some t =>
      match choice t with
      | none => s
      | some ix => (s.passTo ((s.core core).freeSince + 50 * cyclesPerUs)).postRequest t ix none

/-- FAT_SWITCH_REQUEST (R320). -/
def execFatSwitchRequest (part core : Nat) (s : State) : Result := .next (s.fatRequest ⟨part, core⟩)

/-! ### Variant switches (R252, R343 to R345) -/

/-- The rendezvous is complete (R252): every warp that had not retired has arrived, no batch is left, and no handler runs for one. -/
def State.assembled (s : State) (t : Team) (r : SwitchReq) : Bool :=
  r.point.isSome && r.warps.all r.arrived.contains &&
    (s.warpsOfTeam t.id).all fun w => w.atSwitch.isSome && w.tileBatches.isEmpty && w.copyBatches.isEmpty && w.handler.isNone

/-- 4,096 cycles after the first arrival the request of a team is withdrawn, if its rendezvous is not complete then (R252): a complete one, which a
compaction may hold back (R27), ends in the switch. -/
def State.lapseTeam (s : State) (t : Team) : State :=
  if t.request.any fun r => s.lapsed r && !s.assembled t r then s.withdrawSwitch t.id else s

/-- SWITCH_RENDEZVOUS_TIMEOUT (R252): 4,096 cycles after the first arrival. -/
def execSwitchRendezvousTimeout (t : TeamId) (s : State) : Result :=
  .next (match s.team? t with
    | none => s
    | some x =>
      match x.request with
      | none => s
      | some r => match r.point with | none => s | some (_, since) => if s.assembled x r then s else (s.passTo (since + 4096)).withdrawSwitch t)

/-- No file of these shuttles of a core is being compacted (R26, R27). -/
def State.filesQuiet (s : State) (core : CoreId) (shuttles : List Nat) : Bool :=
  match (s.core core).compacting with | none => true | some (k, _) => !shuttles.contains k

/-- A team's rendezvous is complete, and no file of its warps is being compacted (R27). -/
def State.rendezvous (s : State) (t : Team) (r : SwitchReq) : Bool :=
  t.st == .running && s.assembled t r && s.filesQuiet t.core ((s.warpsOfTeam t.id).map (·.shuttle))

/-- The unit is free for a team that takes a variant (R26): it works on no file of the variant's warps, new ones too, and on no file at all where the
switch needs moves of its own. -/
def State.unitFree (s : State) (t : Team) (v : Variant) (reshape : Bool) : Bool :=
  s.filesQuiet t.core ((s.shapeWarps t v reshape).map fun w => shuttleOf t.h w.warp) &&
    ((s.core t.core).compacting.isNone || (s.reseated t v reshape).all fun r => r.2.isEmpty)

/-- Return entries of the threads follow a change of privsz (R343 point 4), through the private path. -/
def State.keepReturns (s : State) (w : Warp) (privsz : Nat) : State :=
  if w.privsz = privsz then s
  else
    let w' := { w with privsz := privsz }
    let from' := (List.range 32).flatMap fun t => (List.range (w.depth[Fin.ofNat 32 t])).map fun l => (l, t)
    let s := s.privDrain w .load (from'.map fun p => ⟨p.2, w.returnVa p.1 p.2, 0, 0, 8⟩)
    let r := from'.foldl (fun (acc : State × List (Nat × List Byte)) p =>
      let q := acc.1.privRead w (w.returnVa p.1 p.2) 8
      (q.1, acc.2 ++ [(w'.returnVa p.1 p.2, q.2.2)])) (s, [])
    (r.2.filter fun p => !p.2.isEmpty).foldl (fun s p => s.privWrite w' p.1 p.2) r.1

/-- A warp enters the new variant (R343): carried registers under their new names, all others 0, wbase and gang 0, splits and loops freed. -/
def Warp.switchTo (w : Warp) (old new : SwitchPoint) (scalars : Nat → Word) (privsz : Nat) : Warp :=
  let vec (i : Fin 256) : Lanes :=
    match (old.vcarry.filter fun p => p.2 == i.val && decide (p.2 < w.valloc)).getLast? with
    | some p => w.vectors[Fin.ofNat 256 p.1]
    | none => Vector.replicate 32 0
  let sca (i : Fin 128) : Word := match (old.scarry.filter fun p => p.2 == i.val).getLast? with | some p => scalars p.1 | none => 0
  { w with
    logged := { w.logged.block' w.valloc with scalars := BitVec.allOnes 128, preds := 0xFFFF, block := true }
    vectors := Vector.ofFn vec
    scalars := Vector.ofFn sca
    preds := Vector.replicate 16 0
    wbase := 0
    gang := 0
    split := Vector.replicate 64 .free
    spill := Vector.replicate 2 []
    rotation := Vector.replicate 2 0
    hold := Vector.replicate 2 none
    yielded := Vector.replicate 2 false
    replay := Vector.replicate 2 []
    loops := Vector.replicate 4 ⟨false, 0, 0, 0, 0, 0⟩
    slots := w.slots.map fun x => if x.st == .live then ⟨.live, { x.frag with pc := new.entry, record := none }⟩ else x
    atSwitch := none
    privsz := privsz }

/-- VARIANT_SWITCH (R343 to R345). Scalars that a reshape carries come from warp 0; of a warp 0 that has retired they are free (log 19). -/
def State.switchTeam (s : State) (id : TeamId) : State :=
  match s.team? id with
  | none => s
  | some t =>
    match t.request, t.request.bind (·.point) with
    | some r, some (n, _) =>
      if s.lapsed r && !s.assembled t r then s.withdrawSwitch id
      else if !r.lean && s.candidateFits t.core then s.withdrawSwitch id
      else if !s.rendezvous t r then s
      else
        match s.variantOf t t.variant, s.variantOf t r.target with
        | some old, some new =>
          match old.point n, new.point n with
          | some a, some b =>
            if !s.unitFree t new a.reshape then s else
            match s.resize t r.target new a.reshape with
            | none => s.withdrawSwitch id
            | some s' =>
              let free := s.freeIx
              let lead := s.warp? ⟨id.ctx, id.grid, id.team, 0⟩
              let from0 (k : Nat) : Word := match lead with | some w => w.scalars[Fin.ofNat 128 k] | none => Config.freeWord (free + k)
              let go (s : State) (w : Warp) : State :=
                let before := (s.warp? w.id).getD w
                let scal (k : Nat) : Word := if a.reshape then from0 k else before.scalars[Fin.ofNat 128 k]
                (s.keepReturns before new.privsz).setWarp w.id fun x => x.switchTo a b scal new.privsz
              let s' := (s'.warpsOfTeam id).foldl go { s' with freeIx := free + 128 }
              (s'.setTeam id fun t => { t with request := none }).roomChanged t.core
          | _, _ => s
        | _, _ => s
    | _, _ => s

/-- VARIANT_SWITCH (R343). -/
def execVariantSwitch (t : TeamId) (s : State) : Result := .next (s.switchTeam t)

/-! ### Migration (R86, R340 to R342) -/

/-- Keep free slots and accumulators of a core for a team: those it is about to occupy. -/
def Core.reserve (c : Core) (t : Team) : Core :=
  let ss := ((List.range 16).filter fun i => match c.slots[i]? with | some x => x.claim.isNone | none => false).take t.slotMap.length
  let aa := ((List.range 4).filter fun i => match c.accs[i]? with | some x => x.claim.isNone | none => false).take t.accMap.length
  { c with slots := Vector.ofFn fun i => if ss.contains i.val then { c.slots[i] with claim := some t.id } else c.slots[i]
           accs := Vector.ofFn fun i => if aa.contains i.val then { c.accs[i] with claim := some t.id } else c.accs[i] }

/-- The same on a core of the device; an undo entry of an accumulator that it takes stays with its context (R334). -/
def State.reserveOn (s : State) (core : CoreId) (t : Team) : State :=
  let taken := ((s.core core).accs.toList.filter fun a => a.claim.isNone).take t.accMap.length
  let s := taken.foldl (fun s a => match a.lastCtx, a.logged with | some old, some k => s.keepLog old [(k, 65536)] | _, _ => s) s
  s.setCore core fun c =>
    let r := c.reserve t
    { r with accs := r.accs.map fun a => if a.claim == some t.id then { a with logged := none } else a }

/-- A team begins to migrate (R341): its warps stop, and its place on the new core is kept. -/
def State.startMigration (s : State) (t : Team) (core : CoreId) (h : Nat) : State :=
  (s.setTeam t.id fun x => { x with st := .migrating core h s.clock }).reserveOn core t

/-- The destination of a migration (R340): the first core in scan order, not the one it leaves. -/
def State.destination (s : State) (t : Team) : Option (CoreId × Nat) :=
  ((s.scanOrder t.core.part).filter (· != t.core)).findSome? fun c => (s.roomFor c t).map fun r => (c, r.1)

/-- A running team may begin to migrate: those of a cooperative grid do so one at a time (R340), and none does during a role change, so that every team
finds its core again (R353, R354). -/
def State.mayMigrate (s : State) (t : Team) : Bool :=
  t.st == .running && s.sluice.change.isNone && !(((s.grid? t.id.ctx t.id.grid).any (·.coop)) && s.teams.any fun x => x.id.ctx == t.id.ctx && x.id.grid == t.id.grid &&
    (match x.st with | .migrating _ _ _ => true | _ => false))

/-- LEAN_MIGRATION (R340): 50 µs after a lean request was posted and not taken, its team makes room for the candidate, which is still
reserved. -/
def State.leanMigrate (s : State) (part : Nat) : State :=
  let reserved := (((s.part? part).bind fun p => p.turn.bind s.vf?).map (·.reserved)).getD []
  let due := s.teams.filterMap fun t =>
    match t.request.filter fun (r : SwitchReq) => !r.moved && r.candidate.any reserved.contains with
    | none => none
    | some r => if t.core.part == part && s.mayMigrate t then (s.destination t).map fun d => (r.posted, t, d) else none
  let first := due.foldl (fun (b : Option (Nat × Team × CoreId × Nat)) x => match b with | none => some x | some y => if x.1 < y.1 then some x else some y) none
  match first with
  | none => s
  | some (posted, t, core, h) =>
    ((s.passTo (posted + 50 * cyclesPerUs)).setTeam t.id fun t => { t with request := t.request.map fun r => { r with moved := true } }).startMigration
      t core h

/-- LEAN_MIGRATION (R340). -/
def execLeanMigration (part : Nat) (s : State) : Result := .next (s.leanMigrate part)

/-- The physical slots or tiles of a core that a team holds, in order. -/
def Core.held (c : Core) (id : TeamId) : List Nat × List Nat :=
  ((List.range 16).filter fun i => match c.slots[i]? with | some x => x.claim == some id | none => false,
   (List.range 4).filter fun i => match c.accs[i]? with | some x => x.claim == some id | none => false)

/-- The new number of a physical slot or tile: `from'` lists the old ones, `dest` the new ones in the same order. -/
def renumber (from' dest : List Nat) (i : Nat) : Nat := (((from'.zip dest).find? fun p => p.1 == i).map (·.2)).getD i

/-- A matrix operation follows its team's claims. -/
def MatrixOp.renumber (o : MatrixOp) (core : CoreId) (slot acc : Nat → Nat) : MatrixOp :=
  let src : MatrixSource → MatrixSource := fun x => match x with
    | .slot ps => .slot (ps.map slot)
    | .handle r i j sc => .handle r i j sc
  let work := match o.work with
    | .tfetch ss r i j sc => .tfetch (ss.map slot) r i j sc
    | .multiply a z x bs m => .multiply (acc a) z (src x) (bs.map fun b => (b.1, b.2.1, src b.2.2)) m
    | .accz a => .accz (acc a)
    | .drainmx a r i j sc => .drainmx (acc a) r i j sc
    | .drainv a r f => .drainv (acc a) r f
  { o with core := core, work := work }

/-- Give a team's claims their contents on the core where they are kept: index by index (R341). -/
def State.moveClaims (s : State) (t : Team) (core : CoreId) (slots : List OperandSlot) (accs : List Accumulator) : State :=
  let held := (s.core core).held t.id
  -- a place kept for a claim that the team has released meanwhile is free again
  let spare (l : List Nat) (n i : Nat) : Bool := (l.drop n).contains i
  let s := s.setCore core fun c =>
    { c with
      slots := Vector.ofFn fun i =>
        if spare held.1 slots.length i.val then { c.slots[i] with claim := none }
        else match (held.1.zip slots).find? fun p => p.1 == i.val with | some p => { p.2 with claim := some t.id } | none => c.slots[i]
      accs := Vector.ofFn fun i =>
        if spare held.2 accs.length i.val then { c.accs[i] with claim := none }
        else match (held.2.zip accs).find? fun p => p.1 == i.val with | some p => { p.2 with claim := some t.id } | none => c.accs[i] }
  let fs := renumber (t.slotMap.map (·.2)) held.1
  let fa := renumber (t.accMap.map (·.2)) held.2
  let s := { s with ops := mapWhere (fun o => o.warp.teamId == t.id) (fun o => o.renumber core fs fa) s.ops }
  s.setTeam t.id fun x => { x with slotMap := x.slotMap.map fun p => (p.1, fs p.2), accMap := x.accMap.map fun p => (p.1, fa p.2) }

/-- A warp takes its block on a core. What it had logged on the core that it leaves stays in the undo region there (R334); the words that a `ret` had
waited for are read again (R181). -/
def Warp.seatAt (w : Warp) (core : CoreId) (b : Block) (active : Bool) (n : Nat) : Warp :=
  let x := if w.core == core then w else w.leaveLog
  { x with
    core := core, shuttle := b.shuttle, blockBase := b.base, active := active, pendingSince := n, count := 0
    loads := w.loads.filter fun l => l.kind != .returnWords }

/-- The warps of a team take their places on a core (R9, R21). The core drops its clean lines of the context, so that each warp sees its own
earlier accesses (R294), and the waiter field names the new core (R259). -/
def State.seatTeam (s : State) (t : Team) (core : CoreId) (h : Nat) (bs : List Block) : State :=
  let put (s : State) (b : Block) : State :=
    let idle := !(s.warps.any fun x => x.core == core && x.shuttle == b.shuttle && x.active)
    let n := s.nextId
    { s with nextId := n + 1 }.setWarp b.warp fun w => w.seatAt core b idle n
  let s := s.mapWarps (fun w => w.id.teamId == t.id) fun w => { w with active := false }
  let s := (bs.foldl put s).l1Clear core (some t.id.ctx)
  let s := (s.setTeam t.id fun x => { x with core := core, h := h, st := .running }).setCore core fun c => { c with freeSince := s.clock }
  s.joinWaiter t.id.ctx t.id.grid

/-- Operations of a team that wait for a handler, and the unfinished ones behind them: none is performed while the team's warps are stopped. -/
def State.behindFault (s : State) (id : TeamId) : List Nat :=
  let hs := sortBy (fun (a b : Holder) => decide (a.id < b.id)) s.holders
  hs.foldl (fun dep y => if hs.any fun x => dep.contains x.id && y.awaits x then y.id :: dep else dep)
    ((s.ops.filter fun o => o.warp.teamId == id && o.faulted && !o.done).map (·.id))

/-- Nothing of the team is outstanding on its core (R341): loads have returned, and the words that a `ret` waits for; stores are acknowledged;
operations are over, or wait for a handler or behind such a one. -/
def State.drained (s : State) (t : Team) : Bool :=
  let back (x : Load) : Bool := x.kind == .returnWords && x.data.isSome
  (s.warpsOfTeam t.id).all (fun w => w.loads.all back && !(s.stores.any fun p => p.warp == w.id && !p.acked)) &&
    (s.ops.all fun o => o.warp.teamId != t.id || o.done || (s.behindFault t.id).contains o.id)

/-- The table entry of a change. -/
def Partition.writePlace (p : Partition) (c : PlaceWrite) : Partition :=
  let put (l : List PlaceEntry) : List PlaceEntry := upsert (fun e => e.logical == c.entry.logical) (fun _ => c.entry) c.entry l
  match c.table with
  | .core => { p with coreTable := put p.coreTable }
  | .cluster => { p with clusterTable := put p.clusterTable }
  | .engine => { p with engineTable := put p.engineTable }

/-- A change of a place table may be made (R359, R380): no team is resident on its cores or on its way to them, the engine has no accepted
copy, and no role change is under way. -/
def State.placeReady (s : State) (c : PlaceWrite) : Bool :=
  s.sluice.change.isNone &&
    (match c.table with
      | .engine => !(s.copies.any fun x => x.core.part == c.part && x.engine == c.entry.logical)
      | _ =>
        let there (k : CoreId) : Bool := k.part == c.part && c.cores.contains k.n
        !(s.teams.any fun t => t.st != .saved && (there t.core || (match t.st with | .migrating k _ _ => there k | _ => false))))

/-- The functions are told that the topology or a measurement has changed (R353, R368, R376). -/
def State.topologyEvent (s : State) (vfs : List Nat) : State := vfs.foldl (fun s v => s.queue0Event v 0x40 s.sluice.roles.toNat) s

/-- The enabled functions of a partition, in ascending number. -/
def State.ring (s : State) (part : Nat) : List Vf :=
  sortBy (fun a b => decide (a.n < b.n)) (s.vfs.filter fun v => v.enabled && v.part == some part)

/-- The engine table of a partition's groups (R361): its engines in ascending group order. An entry of a group that the partition keeps stays
as it was written, if the engine that it names is still of the partition (R356). -/
def Partition.groupTable (p : Partition) (groups : List Nat) : List PlaceEntry :=
  let old (g k : Nat) : Option PlaceEntry := ((indexed p.groups).find? fun x => x.2 == g).bind fun x => p.engineTable.find? fun e => e.logical == 4 * x.1 + k
  (indexed groups).flatMap fun g => (List.range 4).map fun k =>
    let n := 4 * g.1 + k
    match old g.2 k with
    | some e => if groups.contains (e.physical / 4) then { e with logical := n } else ⟨n, 4 * g.2 + k, true⟩
    | none => ⟨n, 4 * g.2 + k, true⟩

/-- The groups of a partition after a group goes to another, or to it. -/
def Partition.groupsAfter (p : Partition) (group part : Nat) : List Nat :=
  let rest := p.groups.filter (· != group)
  if p.n = part then sortBy (fun a b => decide (a < b)) (group :: rest) else rest

/-- The assignment of a group may be made (R359): the engines of the partitions whose tables it changes have no accepted copy. -/
def State.groupReady (s : State) (c : Nat × Nat) : Bool :=
  s.sluice.change.isNone && s.parts.all fun p => p.groupsAfter c.1 c.2 == p.groups || !(s.copies.any fun x => x.core.part == p.n)

/-- The group goes to the partition (R361). -/
def State.assignGroup (s : State) (c : Nat × Nat) : State :=
  let touched := (s.parts.filter fun p => p.groupsAfter c.1 c.2 != p.groups).map (·.n)
  let s : State := { s with parts := s.parts.map fun p =>
    let groups := p.groupsAfter c.1 c.2
    if groups == p.groups then p else { p with groups := groups, engineTable := p.groupTable groups } }
  s.topologyEvent (touched.flatMap fun p => (s.ring p).map (·.n))

/-- Every partition that holds a group in the one state holds one in the other (R361). -/
def State.groupsHeld (s t : State) : Bool := s.parts.all fun p => p.groups.isEmpty || (t.part? p.n).all fun q => !q.groups.isEmpty

/-- Assignments of groups are made that can be: all together, or where that would leave a partition without a group, those of them that would not;
with the assignments made (R361). -/
def State.assignGroups (s : State) (l : List (Nat × Nat)) : State × List (Nat × Nat) :=
  let all := l.foldl State.assignGroup s
  if s.groupsHeld all then (all, l)
  else l.foldl (fun acc c => let t := acc.1.assignGroup c; if s.groupsHeld t then (t, acc.2 ++ [c]) else acc) (s, [])

/-- Changes of place tables that can be made are made, with the event of R368, and the running teams on the cores of the others begin to
migrate (R340, R359). -/
def State.applyPlaces (s : State) : State :=
  let ready := s.sluice.pendingPlaces.filter s.placeReady
  let wait := s.sluice.pendingPlaces.filter fun c => !s.placeReady c
  let groups := s.sluice.pendingGroups.filter s.groupReady
  let s := { s with sluice := { s.sluice with pendingPlaces := wait } }
  let s := ready.foldl (fun s c => (s.setPart c.part fun p => p.writePlace c).topologyEvent ((s.ring c.part).map (·.n))) s
  let q := s.assignGroups groups
  let s := { q.1 with sluice := { q.1.sluice with pendingGroups := q.1.sluice.pendingGroups.filter fun c => !q.2.contains c } }
  let leaving := s.teams.filter fun t => t.st == .running && wait.any fun c => c.part == t.core.part && c.cores.contains t.core.n
  leaving.foldl (fun s t => if !s.mayMigrate t then s else match s.destination t with | none => s | some (c, h) => s.startMigration t c h) s

/-- MIGRATION_RESUME (R341, R342). -/
def State.resumeMigration (s : State) (id : TeamId) : State :=
  match s.team? id with
  | none => s
  | some t =>
    match t.st with
    | .migrating core h _ =>
      if !s.drained t || !s.quiet core (s.teamNeeds t h) then s
      else
        match allocate ((s.blocks core).filter fun b => b.warp.teamId != id) (s.teamNeeds t h) with
        | none => s
        | some bs =>
          let ws := s.warpsOfTeam id
          -- private lines are written back and leave the old core
          let s := s.l1WriteBackAll fun x => x.core == t.core && x.ctx == id.ctx && x.priv
          let s := ws.foldl State.dropPrivate s
          let old := s.core t.core
          let slots := t.slotMap.filterMap fun p => old.slots[p.2]?
          let accs := t.accMap.filterMap fun p => old.accs[p.2]?
          let s := s.moveClaims t core slots accs
          let s := s.setCore t.core fun c =>
            { c with slots := c.slots.map fun x => if x.claim == some id then ⟨none, false, none, false⟩ else x
                     accs := c.accs.map fun x => if x.claim == some id then { x with claim := none, release := false, lastCtx := some id.ctx, logged := none } else x }
          let s := { s with latches := mapWhere (fun l => l.team == id) (fun l => { l with core := core }) s.latches }
          let s := s.setTeam id fun x => { x with pages := x.pages.map fun p => if p.st == .resident then { p with st := .remote t.core } else p }
          (((s.seatTeam t core h bs).roomChanged t.core).dropCode t.core id.ctx id.grid).applyPlaces
    | _ => s

/-- MIGRATION_RESUME (R341). -/
def execMigrationResume (t : TeamId) (s : State) : Result := .next (s.resumeMigration t)

end Sys2Proof.Machine
end

