-- ==== Sys2Proof/Machine/Capabilities.lean ====
section
/-!
DEFINITION. The capability list of a function (R348, R377 to R379) and the bytes of its first BAR (R363): what the entries report and when
(R378), the bound of R312, the bytes of the list and of the BAR.
-/

namespace Sys2Proof.Machine

/-! ### Features (R126, R378) -/

/-- The number of a feature's capability entry (R378). -/
def Feature.id : Feature → Nat
  | .matrix => 0x10
  | .adapterGather => 0x11
  | .structuredSparsity => 0x12
  | .nestedLaunch => 0x13
  | .workGraph => 0x14
  | .countedTasks => 0x15
  | .domainAtomics => 0x16
  | .variantSwitching => 0x17

/-- The features in the order of their numbers. -/
def Feature.all : List Feature :=
  [.matrix, .adapterGather, .structuredSparsity, .nestedLaunch, .workGraph, .countedTasks, .domainAtomics, .variantSwitching]

/-- The feature of a capability identifier; the entries 1 to 4 are of none (R379). -/
def featureOfId (id : Nat) : Option Feature := Feature.all.find? fun f => Feature.id f == id

/-! ### What the entries 0x0001 to 0x0004 report (R378) -/

/-- The bound B_i of R312, in microseconds: the quanta of the other functions of the partition, and 60. -/
def State.boundUs (s : State) (v : Vf) : Nat :=
  match v.part with
  | none => 60
  | some p => (((s.ring p).filter fun x => x.n != v.n).map (·.quantumUs)).sum + 60

/-- The slice of a bank. -/
def sliceOfBank (bank : Nat) : Nat := bank / 4 % 12

/-- The partition of the core, sector or engine that a TLB serves. -/
def homePart : TlbHome → Nat
  | .core c => c.part
  | .sector part _ => part
  | .fetcher c => c.part
  | .engine part _ => part

/-- The ways quarantined in the banks of a partition (R372), and in the L1s and TLBs of its cores, sectors and engines (R371). -/
def State.quarantinedIn (s : State) (p : Partition) : Nat :=
  (s.sluice.quarantined.countP fun q => decide (p.first ≤ sliceOfBank q.1) && decide (sliceOfBank q.1 < p.first + p.size)) +
    ((s.sluice.quarantinedCores.filter fun e => e.1.part == p.n).map (·.2)).sum + ((s.sluice.quarantinedTlbs.filter fun e => homePart e.1 == p.n).map (·.2)).sum

/-- The values of a function's entries as the device stands. -/
def State.capsOf (s : State) (v : Vf) : Capabilities :=
  let sl := s.sluice
  let p := v.part.bind s.part?
  { stepping := sl.stepping, roles := sl.roles, cores := (v.part.map fun n => (s.computeCores n).length).getD 0
    linkWidth := sl.linkWidth, linkRate := sl.linkRate, device := sl.device, packingOk := sl.packingOk
    first := (p.map (·.first)).getD 0, size := (p.map (·.size)).getD 0, groups := (p.map (·.groups)).getD []
    quantumUs := v.quantumUs, checkpointUs := (p.map (·.checkpointUs)).getD 0, boundUs := s.boundUs v
    retired := s.owners.countP (·.retired), quarantined := (p.map s.quarantinedIn).getD 0 }

/-- The values of the physical function's entries: those of a partition and of a virtual device have no meaning there, since it spans all
partitions (R357), and R378 does not say what it reports: they are free (log 58). -/
def State.pfCaps (s : State) : Capabilities :=
  let f (k : Nat) : Nat := (Config.freeWord (s.freeIx + k)).toNat
  { s.capsOf s.pf with
    cores := f 0, first := f 1 % 256, size := f 2 % 256, groups := (List.range 24).filter fun g => (f 3).testBit g, quantumUs := f 4
    checkpointUs := f 5, boundUs := f 6, quarantined := f 7 }

/-- An event of R378 has come: the entries of every function report the present values. -/
def State.publish (s : State) : State :=
  { s with vfs := s.vfs.map (fun v => { v with caps := s.capsOf v }), pf := { s.pf with caps := s.pfCaps }, freeIx := s.freeIx + 8 }

/-! ### The bytes of the list (R377, R379) -/

/-- The header of an entry (R377). -/
def capHeader (id length next : Nat) : List Byte := leBytes 8 (next * 2 ^ 32 + length * 2 ^ 24 + 2 ^ 16 + id)

/-- A body and zeros up to a length. -/
def padTo (n : Nat) (b : List Byte) : List Byte := b ++ List.replicate (n - b.length) 0

/-- The bodies of the entries 0x0001 to 0x0004 (R378), by identifier. -/
def Capabilities.bodies (c : Capabilities) : List (Nat × List Byte) :=
  [(0x0001, padTo 24 (leBytes 2 c.stepping ++ leBytes 2 c.roles.toNat ++ leBytes 4 c.cores ++ leBytes 1 c.linkWidth ++ leBytes 1 c.linkRate ++
      leBytes 1 c.device ++ leBytes 1 (if c.packingOk then 1 else 0))),
   (0x0002, padTo 8 (leBytes 1 c.first ++ leBytes 1 c.size ++ leBytes 2 0 ++ leBytes 3 (maskOf c.groups).toNat)),
   (0x0003, leBytes 4 c.quantumUs ++ leBytes 4 c.checkpointUs ++ leBytes 8 c.boundUs),
   (0x0004, leBytes 4 c.retired ++ leBytes 4 c.quarantined)]

/-- The entries of a list, each with its BAR offset from 0x100 on, its identifier and its body (log 58). -/
def Capabilities.entries (c : Capabilities) : List (Nat × Nat × List Byte) :=
  let all := c.bodies ++ Feature.all.map fun f => (Feature.id f, [])
  (all.foldl (fun (acc : Nat × List (Nat × Nat × List Byte)) e => (acc.1 + 8 + e.2.length, acc.2 ++ [(acc.1, e.1, e.2)])) (0x100, [])).2

/-- The bytes of the entries: each header names the next entry that is linked (R379), and 0 ends the list. -/
def capBytes (linked : Nat → Bool) : List (Nat × Nat × List Byte) → List Byte
  | [] => []
  | (_, id, body) :: rest =>
    let next := ((rest.find? fun e => linked e.2.1).map (·.1)).getD 0
    capHeader id (8 + body.length) next ++ body ++ capBytes linked rest

/-- The capability list of a function, from BAR offset 0x100: the entries of masked features are unlinked (R348, R379). -/
def Vf.capList (v : Vf) : List Byte := capBytes (fun id => !(v.masked.any fun f => Feature.id f == id)) v.caps.entries

/-! ### The BAR (R363) -/

/-- A byte of a function's first BAR: zeros, the capability list, the MSI-X table and pending bits. What R363 gives no content, and what a read
of the physical function's mailbox at 0x3800 returns, is free (log 58). -/
def Vf.barByte (v : Vf) (free off : Nat) : Byte :=
  let list := v.capList
  if off < 0x100 then 0
  else if off < 0x100 + list.length then (list[off - 0x100]?).getD 0
  else if 0x2000 ≤ off && off < 0x3000 then ((v.msixTable.find? fun e => e.1 == off - 0x2000).map (·.2)).getD 0
  else if 0x3000 ≤ off && off < 0x3800 then
    BitVec.ofNat 8 (((List.range 8).filter fun k => v.msixPending.contains (8 * (off - 0x3000) + k)).foldl (fun n k => n + 2 ^ k) 0)
  else (Config.freeWord (free + off)).extractLsb' 0 8

end Sys2Proof.Machine
end

