-- ==== Sys2Proof/Machine/FrontEnd.lean ====
section
/-!
DEFINITION. The portal (R295 to R297), the packets that the heddle core consumes (R298 to R303, R398, R399), and what the host reads and
writes of a function's BAR (R363).
-/

namespace Sys2Proof.Machine

/-- The host link is enabled (R367). -/
def State.linkUp (s : State) : Bool := s.sluice.hostLink && !s.sluice.recovery

/-! ### The portal (R296, R297) -/

/-- The header of a packet (R296): sequence number, type, zero bits, after, queue. -/
structure Header where
  seq : Nat
  type : Nat
  zeros : Bool
  after : Bool
  queue : Nat
  deriving DecidableEq, Repr

/-- The header in bytes 0 to 7. -/
def header (b : List Byte) : Header :=
  let h := leAt b 0 8
  ⟨bitsOf h 63 32, bitsOf h 31 24, bitsOf h 23 17 == 0 && bitsOf h 15 8 == 0, bitsOf h 16 16 == 1, bitsOf h 7 0⟩

/-- The queue of a function. -/
def Vf.queue? (v : Vf) (n : Nat) : Option Queue := v.queues.find? fun q => q.n == n

/-- Change a queue. -/
def State.setQueue (s : State) (vf n : Nat) (f : Queue → Queue) : State :=
  s.setVf vf fun v => { v with queues := mapWhere (fun q => q.n == n) f v.queues }

/-- PORTAL_WRITE (R297), by the rows of its table. -/
def State.portal (s : State) (b : BarWrite) : State :=
  match s.vf? b.vf with
  | none => if b.vf = 0 && s.linkUp then s.send (.unsupportedRequest 0) else s
  | some v =>
    if !s.linkUp || !v.enabled then s
    else if !v.portalOpen then s.send (.unsupportedRequest b.vf)
    else
      let h := header b.bytes
      match (v.queue? h.queue).filter fun q => b.bytes.length == 64 && b.offset == 0x1000 && b.pasid == q.pasid with
      | none => (s.send (.unsupportedRequest b.vf)).queue0Event b.vf 0x42 h.queue
      | some q =>
        let e := q.expected.toNat
        if h.seq = e then
          if q.buffer.length < 16 then
            (s.setQueue b.vf h.queue fun q => { q with expected := q.expected + 1, buffer := q.buffer ++ [b.bytes] }).send (.portalSuccess b.vf)
          else s.send (.portalRetry b.vf)
        else
          let back := (e + 2 ^ 32 - h.seq) % 2 ^ 32
          if 1 ≤ back && back ≤ 2 ^ 31 then s.send (.portalSuccess b.vf) else s.send (.portalRetry b.vf)

/-- PORTAL_WRITE (R297). -/
def execPortalWrite (b : BarWrite) (s : State) : Result := .next (s.portal b)

/-- BAR_WRITE_DISCARDED (R363): nothing changes. -/
def execBarWriteDiscarded (_ : BarWrite) (s : State) : Result := .next s

/-- Vectors that are no longer masked are sent (R362). -/
def State.releaseMsix (s : State) (vf : Nat) : State :=
  match s.vf? vf with
  | none => s
  | some v => v.msixPending.foldl (fun s k => s.msix vf k) (s.setVf vf fun v => { v with msixPending := [] })

/-- The physical function or a virtual one. -/
def State.fn? (s : State) (n : Nat) : Option Vf := (s.vf? n).or (if n = 0 then some s.pf else none)

/-- Bytes of a BAR write reach the vectors' entries, 16 bytes each, from 0x2000, and the pending bits from 0x3000 (R363). -/
def Vf.msixPut (v : Vf) (b : BarWrite) : Vf :=
  (indexed b.bytes).foldl (fun v p =>
    let off := b.offset + p.1
    if 0x2000 ≤ off && off < 0x3000 then
      { v with msixTable := upsert (fun e => e.1 == off - 0x2000) (fun _ => (off - 0x2000, p.2)) (off - 0x2000, p.2) v.msixTable }
    else if 0x3000 ≤ off && off < 0x3800 then
      let bits := (rangeFrom (8 * (off - 0x3000)) 8)
      { v with msixPending := (bits.filter fun k => p.2.getLsbD (k % 8)) ++ v.msixPending.filter fun k => !bits.contains k }
    else v) v

/-- MSIX_TABLE_WRITE (R363). The physical function has no vector to send (R362). -/
def State.msixWrite (s : State) (b : BarWrite) : State :=
  if !s.linkUp then s
  else if b.vf = 0 && (s.vf? 0).isNone then { s with pf := s.pf.msixPut b }
  else (s.setVf b.vf fun v => v.msixPut b).releaseMsix b.vf

/-- MSIX_TABLE_WRITE (R363). -/
def execMsixTableWrite (b : BarWrite) (s : State) : Result := .next (s.msixWrite b)

/-- The host reads bytes of a function's BAR (R363). -/
def State.barRead (s : State) (vf offset size : Nat) : State :=
  match s.fn? vf with
  | none => s
  | some v =>
    if !s.linkUp || !v.enabled then s
    else { s with freeIx := s.freeIx + 1 }.send (.readData ((rangeFrom offset size).map (v.barByte s.freeIx)) false)

/-! ### Consuming packets (R298, R302) -/

/-- A root grid of the queue is live: it was created from an earlier packet. -/
def State.queueLive (s : State) (vf q : Nat) : Bool := s.grids.any fun g => g.packet.isSome && g.source == .queue vf q

/-- The head packet of a queue that an after bit does not hold back (R298). -/
def State.headPacket (s : State) (vf q : Nat) : Option (Queue × List Byte) :=
  match (s.vf? vf).bind fun v => v.queue? q with
  | none => none
  | some x =>
    match x.buffer with
    | [] => none
    | b :: _ => if (header b).after && s.queueLive vf q then none else some (x, b)

/-- What carrying out a packet gives: a result code with the state and the detail of the status word, or the queue is held. -/
inductive Carried where
  | result (code : Nat) (s : State) (detail : Nat)
  | held

/-- A packet without effect. -/
def refuse (code : Nat) (s : State) : Carried := .result code s 0

/-- Write the status word of a consumed packet (R298): queue 0 reports to the host bus without PASID. -/
def State.statusWord (s : State) (vf : Nat) (q : Queue) (seq code detail : Nat) : State :=
  let bytes := leBytes 8 (seq * 2 ^ 32 + detail % 2 ^ 24 * 2 ^ 8 + code)
  if q.n = 0 then s.send (.hostBusWrite q.status bytes) else s.reportWrite vf q.n q.ctx q.status bytes

/-- The context has failed (R373). -/
def State.ctxFailed (s : State) (ctx : Nat) : Bool := ((s.ctx? ctx).map (·.failed)).getD false

/-- A packet that acts on a context of its queue (R299): only on user queues. -/
def State.userPacket (s : State) (q : Queue) (carry : Ctx → Carried) : Carried :=
  if q.n = 0 then refuse 4 s
  else
    match s.ctx? q.ctx with
    | none => refuse 4 s
    | some c => carry c

/-- A privileged packet that names a context of the function in bytes 8 and 9 (R299, R398). R298 does not say which of several results is
reported: a wrong queue goes before zero fields, these before the context, and it before the packet's other fields (log 36). -/
def State.privPacket (s : State) (vf : Nat) (q : Queue) (b : List Byte) (zeros : Bool) (carry : Ctx → Carried) : Carried :=
  if q.n != 0 then refuse 2 s
  else if !zeros || 4096 ≤ leAt b 8 2 then refuse 3 s
  else
    match (s.ctx? (leAt b 8 2)).filter fun c => c.vf == vf && !c.failed with
    | none => refuse 4 s
    | some c => carry c

/-- A grid of the context is live. -/
def State.ctxLive (s : State) (ctx : Nat) : Bool := s.grids.any fun g => g.ctx == ctx

/-! ### Launch (R300, R301) -/

/-- Checks of a launch packet (R245, R300) other than the frame pool. -/
def State.launchPacketCheck (s : State) (vf : Nat) (q : Queue) (b : List Byte) : Option Kernel :=
  let teams := leAt b 16 4
  let size := leAt b 20 4
  let coop := leAt b 24 1 == 1
  if teams = 0 || 65472 < size || leAt b 32 8 % 8 != 0 then none
  else
    match s.kernel q.ctx (leAt b 8 8) with
    | none => none
    | some k => if coop && s.neverPlaced (((s.vf? vf).bind (·.part)).getD 12) q.ctx teams k.variants then none else some k

/-- LAUNCH_PACKET (R258, R300): refused, held until its class has a frame, or a root grid is created. -/
def State.launchPacket (s : State) (vf : Nat) (q : Queue) (b : List Byte) : Carried :=
  if q.n = 0 || (s.ctx? q.ctx).isNone then refuse 4 s
  else
    let signal := leAt b 32 8
    let seq := (header b).seq
    if 1 < leAt b 24 1 || !zeroBytes b 25 32 || !zeroBytes b 40 64 then refuse 3 s
    else
      match s.launchPacketCheck vf q b with
      | none =>
        let s := s.unitReads q.ctx (s.kernelReads q.ctx 5 (leAt b 8 8))
        refuse 3 (if signal != 0 && signal % 8 == 0 then s.reportWrite vf q.n q.ctx signal (leBytes 8 (seq * 2 ^ 32 + 0x20)) else s)
      | some k =>
        let size := leAt b 20 4
        match s.freeFrame q.ctx (frameClass size) with
        | none => .held
        | some f =>
          let r : GridRequest :=
            { ctx := q.ctx, parent := none, launcher := none, descriptor := leAt b 8 8, size := size, teams := leAt b 16 4,
              coop := leAt b 24 1 == 1, level := 0, display := [], parentFrame := 0, source := .queue vf q.n, prio := q.level,
              packet := some (BitVec.ofNat 32 seq, signal), task := none, mask := 0xFFFFFFFF#32, contents := [] }
          .result 0 ((s.unitReads q.ctx (s.kernelReads q.ctx 5 (leAt b 8 8))).createGrid r k f).1 0

/-- The queue holds a consumable packet (R302): its head is not held by after, by a frame that it waits for, or by a failed context, of whose
queues only launch packets are consumed (R373). -/
def State.consumable (s : State) (vf q : Nat) : Bool :=
  match s.headPacket vf q with
  | none => false
  | some (x, b) =>
    let h := header b
    if x.n != 0 && s.ctxFailed x.ctx then h.type == 0x01
    else !h.zeros || h.type != 0x01 || (match s.launchPacket vf x b with | .held => false | .result _ _ _ => true)

/-! ### Rounds (R302) -/

/-- The queues of a function that hold a consumable packet, in the guest order of R308. -/
def State.guestQueues (s : State) (v : Vf) : List (Nat × Nat) :=
  let qs := (sortBy (fun (a b : Queue) => decide (a.n < b.n)) (v.queues.filter fun q => s.consumable v.n q.n)).map fun q => (Source.queue v.n q.n, q)
  (s.grantOrder v (fun (q : Queue) => q.level) qs).map fun q => (v.n, q.2.n)

/-- The lanes of a new round: at most 64 queues, those of the functions whose turn it is first, in guest order, the others in ascending
function and queue number. R302 does not say how the functions of several partitions that have a turn at once follow each other: here in the
order in which they were enabled, the model's choice (log 69). -/
def State.newRound (s : State) : List (Nat × Nat) :=
  let turn := s.parts.filterMap (·.turn)
  let first := (s.vfs.filter fun v => turn.contains v.n).flatMap s.guestQueues
  let rest := (sortBy (fun (a b : Vf) => decide (a.n < b.n)) (s.vfs.filter fun v => !turn.contains v.n)).flatMap fun v =>
    (sortBy (fun (a b : Queue) => decide (a.n < b.n)) (v.queues.filter fun q => s.consumable v.n q.n)).map fun q => (v.n, q.n)
  (first ++ rest).take 64

/-- The lanes that still have to run: those of the round under way, or of a new one once none is left. -/
def State.lanesLeft (s : State) : List (Nat × Nat) :=
  match s.round.filter fun l => s.consumable l.1 l.2 with
  | [] => s.newRound
  | l :: more => l :: more

/-- The type of the packet that a lane holds. -/
def State.laneType (s : State) (l : Nat × Nat) : Nat := ((s.headPacket l.1 l.2).map fun p => (header p.2).type).getD 0

/-- Consume the head packet of a queue if its type is the one named (R298) and the round has come to it: the lanes holding the lowest type
number run before the others (R302). A launch of a failed context completes with 4 (R373). A header whose zero bits are not 0 gives 0x03
before everything else (log 36). -/
def State.consume (s : State) (vf q : Nat) (type : Nat → Bool) (carry : Queue → List Byte → Carried) : State :=
  let lanes := s.lanesLeft
  match s.headPacket vf q with
  | none => s
  | some (x, b) =>
    let h := header b
    if !type h.type || !s.linkUp || !lanes.contains (vf, q) || lanes.any fun l => decide (s.laneType l < h.type) then s
    else
      match (if x.n != 0 && s.ctxFailed x.ctx then (if h.type = 0x01 then refuse 4 s else .held) else if h.zeros then carry x b else refuse 3 s) with
      | .held => s
      | .result code s detail =>
        let left := lanes.filter fun l => l != (vf, q)
        let s := { s with round := left }.setQueue vf q fun x => { x with buffer := x.buffer.drop 1 }
        s.statusWord vf x h.seq code detail

/-- LAUNCH_PACKET (R300). -/
def execLaunchPacket (vf queue : Nat) (s : State) : Result := .next (s.consume vf queue (· == 0x01) (s.launchPacket vf))

/-! ### Tasks and nodes (R314, R317) -/

/-- The task is ready or its grid is live: state 2 or 3 (R317). -/
def State.taskBusy (s : State) (c : Ctx) (i : Nat) : Bool :=
  (c.ready.any fun r => r.1 == i) || s.grids.any fun g => g.ctx == c.id && g.task == some i

/-- TASK_ARM (R317, R398). Of a `depdec` in its cycle it comes last (R322): once it has armed the task, the cycle is over. -/
def State.armTask (s : State) (q : Queue) (b : List Byte) : Carried :=
  s.userPacket q fun c =>
    let i := leAt b 8 4
    let count := leAt b 12 2
    let prio := leAt b 14 1
    let frame := leAt b 32 4
    if 15 < prio || leAt b 15 1 != 0 || frame < 16 || 65472 < frame || !zeroBytes b 36 64 then refuse 3 s
    else
      match c.taskTable with
      | none => refuse 4 s
      | some (base, size, _) =>
        if size ≤ i then refuse 3 s
        else if s.taskBusy c i then refuse 5 s
        else
          let entry := leBytes 8 (leAt b 16 8) ++ leBytes 8 (leAt b 24 8) ++ leBytes 2 count ++ leBytes 1 prio ++
            leBytes 1 (if count = 0 then 2 else 1) ++ leBytes 4 frame ++ leBytes 8 0
          let r := s.unitWrite c.id (base + 32 * i) entry
          if r.2 != 0 then refuse 4 s
          else .result 0 ((if count = 0 then r.1.setCtx c.id fun c => c.makeReady i prio s.clock else r.1).passTo (s.clock + 1)) 0

/-- TASK_ARM (R317). -/
def execTaskArm (vf queue : Nat) (s : State) : Result := .next (s.consume vf queue (· == 0x08) s.armTask)

/-- NODE_DEFINE (R314, R398). -/
def State.defineNode (s : State) (q : Queue) (b : List Byte) : Carried :=
  s.userPacket q fun c =>
    let n := leAt b 8 2
    let key := leAt b 10 1
    let level := leAt b 11 1
    let timer := leAt b 12 4
    let frame := leAt b 16 4
    if 4095 < n || 7 < key || 7 < level || 1000 < timer || frame < 512 || 65472 < frame || !zeroBytes b 20 24 || !zeroBytes b 32 64 then refuse 3 s
    else
      match s.kernel c.id (leAt b 24 8) with
      | none => refuse 3 (s.unitReads c.id (s.kernelReads c.id 5 (leAt b 24 8)))
      | some k =>
        if k.variants.any fun v => v.warps != 1 then refuse 3 s
        else if (c.nodes.any fun x => x.n == n && !x.records.isEmpty) then refuse 5 s
        else
          let node : Node :=
            { n := n, kernel := leAt b 24 8, frame := frame, timerUs := if timer = 0 then 5 else timer,
              key := if bitsOf key 2 2 == 1 then some (bitsOf key 1 0) else none, level := level, records := [], due := [] }
          let s := s.unitReads c.id (s.kernelReads c.id 5 (leAt b 24 8))
          .result 0 (s.setCtx c.id fun c => { c with nodes := upsert (fun x => x.n == n) (fun _ => node) node c.nodes }) 0

/-- NODE_DEFINE (R314). -/
def execNodeDefine (vf queue : Nat) (s : State) : Result := .next (s.consume vf queue (· == 0x09) s.defineNode)

/-! ### Privileged packets (R299, R398, R399) -/

/-- The conditions of the control block's table (R327). -/
def controlBlockOk (b : List Byte) : Bool :=
  let handler := leAt b 0 8
  let fq := leAt b 8 8
  let size := leAt b 16 4
  (handler == 0 || handler / 4 % 8 != 0) && fq % 64 == 0 && ((fq == 0) == (size == 0)) &&
    (size == 0 || (decide (16 ≤ size) && decide (size ≤ 65536) && 2 ^ Nat.log2 size == size)) && zeroBytes b 25 32 &&
    leAt b 32 8 % 2 ^ 21 == 0 && zeroBytes b 40 64

/-- RECORD_WRITE (R92, R327): handle 0 is the control block, whose producer restarts and whose overflow is cleared. Cached copies of the record are
dropped. -/
def State.writeRecord (s : State) (vf : Nat) (q : Queue) (b : List Byte) : Carried :=
  s.privPacket vf q b (zeroBytes b 12 16 && zeroBytes b 24 64) fun c =>
    let h := leAt b 10 2
    match s.frontRead c.id (leAt b 16 8) 64 with
    | none => refuse 4 (s.unitReads c.id [(leAt b 16 8, 64)])
    | some r =>
      if h = 0 && !controlBlockOk r then refuse 3 s
      else
        let new := if h = 0 then overwrite r 20 (leBytes 5 0) else r
        let w := (s.unitReads c.id [(leAt b 16 8, 64)]).unitWrite c.id (c.recordTable + 64 * h) new false
        if w.2 != 0 then refuse 4 s else .result 0 (w.1.dropRecord fun r => r.ctx == c.id && r.handle == h) 0

/-- RECORD_WRITE (R92). -/
def execRecordWrite (vf queue : Nat) (s : State) : Result := .next (s.consume vf queue (· == 0x10) (s.writeRecord vf))

/-- Every page of the record table is mapped as a supervisor page with write 0 (R92). -/
def State.recordTableOk (s : State) (ctx base : Nat) : Bool :=
  (rangeFrom (base / 4096) ((base + 65536 * 64 + 4095) / 4096 - base / 4096)).all fun p =>
    match s.walk ctx (4096 * p) with
    | .error _ => false
    | .ok l => decide (4096 * p < 2 ^ 57) && l.pte.getLsbD 3 && !l.pte.getLsbD 1

/-- A context with the bases of a setup packet (R299). -/
def Ctx.rebase (c : Ctx) (b : List Byte) : Ctx :=
  { c with pageTable := leAt b 16 8, recordTable := leAt b 24 8, backing := leAt b 32 8, privRegion := leAt b 40 8, teamSlots := leAt b 10 2 }

/-- A new context of a function. -/
def Ctx.new (id vf clock : Nat) : Ctx where
  id := id
  vf := vf
  failed := false
  pageTable := 0
  recordTable := 0
  backing := 0
  privRegion := 0
  teamSlots := 0
  framePool := none
  pagePools := []
  nodes := []
  keyTable := 0
  taskTable := none
  ready := []
  prevGrid := 0
  snapshot := Snapshot.empty
  checkpointAt := clock
  paused := false
  undo := []
  undoGone := []
  savedOut := false

/-- The context is busy in a way that R399 names. -/
def State.ctxBusy (s : State) (c : Ctx) : Bool :=
  s.ctxLive c.id || !c.ready.isEmpty ||
    s.vfs.any fun v => v.queues.any fun q => q.n != 0 && q.ctx == c.id && s.consumable v.n q.n

/-- Set up a context and zero its control block; 4 when the record table does not fit R92. No record of the old table stays cached (log 82). -/
def State.setUp (s : State) (ctx : Nat) (b : List Byte) (detail : Nat) : Carried :=
  let s' := s.setCtx ctx fun c => c.rebase b
  if !s'.recordTableOk ctx (leAt b 24 8) then refuse 4 s
  else
    let w := s'.unitWrite ctx (leAt b 24 8) (leBytes 64 0) false
    if w.2 != 0 then refuse 4 s else .result 0 (w.1.dropRecord fun r => r.ctx == ctx) detail

/-- The partition that owns the bank of a home address (R356). -/
def State.bankPart (s : State) (ha : Nat) : Option Partition :=
  s.parts.find? fun p => decide (p.first ≤ sliceOf ha) && decide (sliceOf ha < p.first + p.size)

/-- Change the entry of a frame in the frame ownership table (R77). -/
def State.setFrame (s : State) (frame : Nat) (f : FrameOwner → FrameOwner) : State :=
  { s with owners := upsert (fun x => x.frame == frame) f ⟨frame, false, false, 0, false⟩ s.owners }

/-- FRAME_RETIRE (R374): the retired bit, and the list in flash of up to 4,096 frames. -/
def State.retireFrame (s : State) (frame : Nat) : State :=
  let s := s.setFrame frame fun f => { f with retired := true, pending := false }
  let sl := s.sluice
  if sl.retired.contains frame then s
  else if 4096 ≤ sl.retired.length then s.send .listFull
  else { s with sluice := { sl with retired := sl.retired ++ [frame] } }

/-- Frames leave their owners: their lines are written back and invalidated first (R81), and those with a pending error are retired (R371),
which the functions' lists report (R378). -/
def State.releaseFrames (s : State) (p : FrameOwner → Bool) : State :=
  let gone := s.owners.filter fun f => f.valid && p f
  if gone.isEmpty then s
  else
    let s := (s.l2.filter fun l => gone.any fun f => f.frame == l.ha / 65536).foldl State.evictLine s
    let s := { s with owners := mapWhere (fun f => f.valid && p f) (fun f => { f with valid := false, owner := 0 }) s.owners }
    match gone.filter (·.pending) with
    | [] => s
    | l => (l.foldl (fun s f => s.retireFrame f.frame) s).publish

/-- Of the frames recorded for an identifier before its context existed, the sluice firmware keeps only those of the new context's partition
(R356; log 57). -/
def State.keepFrames (s : State) (id vf : Nat) : State :=
  let part := (s.vf? vf).bind (·.part)
  s.releaseFrames fun f => f.owner == id && !(part.isSome && (s.bankPart (f.frame * 65536)).map (·.n) == part)

/-- CONTEXT_SETUP (R299, R399): context 0 asks for a new identifier, the lowest that no context holds. R299 gives no result for a setup that
finds none: 0x05 here, the model's choice (log 70). -/
def State.setupContext (s : State) (vf : Nat) (q : Queue) (b : List Byte) : Carried :=
  if q.n != 0 then refuse 2 s
  else if 4096 ≤ leAt b 8 2 || leAt b 10 2 = 0 || 4096 < leAt b 10 2 || leAt b 16 8 % 4096 != 0 || leAt b 40 8 % 2 ^ 20 != 0 ||
      !zeroBytes b 12 16 || !zeroBytes b 48 64 then refuse 3 s
  else
    match leAt b 8 2 with
    | 0 =>
      match (rangeFrom 1 4095).find? fun i => (s.ctx? i).isNone with
      | none => refuse 5 s
      | some id =>
        match ({ s with ctxs := s.ctxs ++ [Ctx.new id vf s.clock] }.keepFrames id vf).setUp id b id with
        | .result 0 s' d => .result 0 s' d
        | .result c _ _ => refuse c s
        | .held => .held
    | ctx =>
      match (s.ctx? ctx).filter fun c => c.vf == vf && !c.failed with
      | none => refuse 4 s
      | some c => if s.ctxBusy c then refuse 5 s else s.setUp ctx b 0

/-- CONTEXT_SETUP (R299). -/
def execContextSetup (vf queue : Nat) (s : State) : Result := .next (s.consume vf queue (· == 0x11) (s.setupContext vf))

/-- The regions of a frame pool (R257): base and end of the pool, and the frame addresses of each class. -/
def poolLayout (base : Nat) (counts : List Nat) : Nat × List (List Nat) :=
  (indexed counts).foldl (fun acc p =>
    let size := 2 ^ (8 + p.1)
    let start := roundUp acc.1 size
    (start + p.2 * size, acc.2 ++ [(List.range p.2).map fun i => start + i * size])) (base, [])

/-- The pages of a range. -/
def pagesIn (lo hi : Nat) : List Nat := (rangeFrom (lo / 4096) ((hi + 4095) / 4096 - lo / 4096)).map (· * 4096)

/-- INVALIDATE_TRANSLATIONS (R70, R257). R257 says nothing of a length of 0: an address within the live pool counts as covering its page, and
the packet answers 0x05, the model's choice (log 71). -/
def State.invalidate (s : State) (vf : Nat) (q : Queue) (b : List Byte) : Carried :=
  s.privPacket vf q b (zeroBytes b 10 16 && zeroBytes b 32 64) fun c =>
    let lo := leAt b 16 8
    let hi := lo + leAt b 24 8
    let pool := c.framePool.map fun p => (p.base, (poolLayout p.base p.counts).1)
    let covers := match pool with
      | none => false
      | some (a, z) => decide (a < (hi + 4095) / 4096 * 4096) && decide (lo / 4096 * 4096 < z)
    if covers && s.ctxLive c.id then refuse 5 s
    else .result 0 { s with tlb := s.tlb.filter fun e => !(e.ctx == c.id && decide (e.page < hi) && decide (lo < e.page + e.size)) } 0

/-- INVALIDATE_TRANSLATIONS (R70). -/
def execInvalidateTranslations (vf queue : Nat) (s : State) : Result := .next (s.consume vf queue (· == 0x12) (s.invalidate vf))

/-- FRAME_POOL (R257). It does not say whether pages that lie wholly in the bytes skipped between two classes' regions belong to the pool: here
they are checked with the others, and count as its pages, the model's choice (log 71). -/
def State.setFramePool (s : State) (vf : Nat) (q : Queue) (b : List Byte) : Carried :=
  s.privPacket vf q b (zeroBytes b 10 16 && zeroBytes b 42 64) fun c =>
    let base := leAt b 16 8
    let counts := (List.range 9).map fun i => leAt b (24 + 2 * i) 2
    let l := poolLayout base counts
    let good (p : Nat) : Bool :=
      match s.walk c.id p with
      | .error _ => false
      | .ok leaf => decide (p < 2 ^ 57) && leaf.pte.getLsbD 1 && isDram (leaf.home p) && s.owns c.id (leaf.home p)
    if base % 65536 != 0 then refuse 3 s
    else if !(pagesIn base l.1).all good then refuse 4 s
    else if s.ctxLive c.id then refuse 5 s
    else .result 0 (s.setCtx c.id fun c => { c with framePool := some ⟨base, counts, l.2⟩ }) 0

/-- FRAME_POOL (R257). -/
def execFramePool (vf queue : Nat) (s : State) : Result := .next (s.consume vf queue (· == 0x13) (s.setFramePool vf))

/-- PAGE_POOL (R254, R299); no rollback returns to the pool before it. Any list of addresses is accepted; what an address means that is not aligned to
4 KiB or lies above 2^52 is the model's choice, made in `poolFrame` (log 74). -/
def State.setPagePool (s : State) (vf : Nat) (q : Queue) (b : List Byte) : Carried :=
  s.privPacket vf q b (zeroBytes b 24 64) fun c =>
    let n := leAt b 10 1
    let bits := leAt b 11 1
    let count := leAt b 12 4
    if 127 < n || 7 < bits then refuse 3 s
    else
      match s.frontRead c.id (leAt b 16 8) (8 * count) with
      | none => refuse 4 (s.unitReads c.id [(leAt b 16 8, 8 * count)])
      | some l =>
        let p : PagePool := ⟨n, bits.testBit 0, bits.testBit 1, bits.testBit 2, (List.range count).map fun i => leAt l (8 * i) 8⟩
        let put (ps : List PagePool) : List PagePool := upsert (fun x => x.n == n) (fun _ => p) p ps
        let s := s.unitReads c.id [(leAt b 16 8, 8 * count)]
        .result 0 (s.setCtx c.id fun c => { c with pagePools := put c.pagePools, snapshot := { c.snapshot with pools := put c.snapshot.pools } }) 0

/-- PAGE_POOL (R299). -/
def execPagePool (vf queue : Nat) (s : State) : Result := .next (s.consume vf queue (· == 0x14) (s.setPagePool vf))

/-- KILL_GRID (R268). -/
def State.killPacket (s : State) (vf : Nat) (q : Queue) (b : List Byte) : Carried :=
  s.privPacket vf q b (zeroBytes b 10 12 && zeroBytes b 16 64) fun c =>
    let id := leAt b 12 4
    if (s.grid? c.id id).isNone then refuse 4 s
    else .result 0 ((s.killGrids c.id (s.grids.length + 1) [id]).settle) 0

/-- KILL_GRID (R268). -/
def execKillGrid (vf queue : Nat) (s : State) : Result := .next (s.consume vf queue (· == 0x15) (s.killPacket vf))

/-- TASK_TABLE (R299, R399). R317 says that the table's pages are supervisor pages, and no rule that the packet checks it or what it answers for
other pages: it checks nothing, the model's choice (log 79). -/
def State.setTaskTable (s : State) (vf : Nat) (q : Queue) (b : List Byte) : Carried :=
  s.privPacket vf q b (leAt b 11 1 == 0 && zeroBytes b 24 64) fun c =>
    let level := leAt b 10 1
    let size := leAt b 12 4
    if 7 < level || size = 0 || 65536 < size then refuse 3 s
    else if !c.ready.isEmpty || s.grids.any fun g => g.ctx == c.id && g.task.isSome then refuse 5 s
    else .result 0 (s.setCtx c.id fun c => { c with taskTable := some (leAt b 16 8, size, level) }) 0

/-- TASK_TABLE (R299). -/
def execTaskTable (vf queue : Nat) (s : State) : Result := .next (s.consume vf queue (· == 0x16) (s.setTaskTable vf))

/-- KEY_TABLE (R316). -/
def State.setKeyTable (s : State) (vf : Nat) (q : Queue) (b : List Byte) : Carried :=
  s.privPacket vf q b (zeroBytes b 10 16 && zeroBytes b 24 64) fun c =>
    .result 0 (s.setCtx c.id fun c => { c with keyTable := leAt b 16 8 }) 0

/-- KEY_TABLE (R316). -/
def execKeyTable (vf queue : Nat) (s : State) : Result := .next (s.consume vf queue (· == 0x17) (s.setKeyTable vf))

/-- QUEUE_CONFIGURE (R295, R399). R399 does not ask a destroy to name the context of the queue that it destroys: it may name any context of the
function, the model's choice (log 70). Nor do R398 and R399 say whether a destroy checks the fields that it does not use, level, weight, aging limit and
bits 31:20 of the PASID: it does not, the model's choice (log 79). What the distributor knew of a destroyed queue's source goes with it (R308, R309). -/
def State.configureQueue (s : State) (vf : Nat) (q : Queue) (b : List Byte) : Carried :=
  s.privPacket vf q b (leAt b 13 1 == 0 && zeroBytes b 20 24 && zeroBytes b 32 63 && decide (leAt b 63 1 ≤ 1)) fun c =>
    let n := leAt b 10 1
    let old := (s.vf? vf).bind fun v => v.queue? n
    if n = 0 then refuse 3 s
    else if leAt b 63 1 = 1 then
      match old with
      | none => refuse 4 s
      | some x =>
        if !x.buffer.isEmpty || s.queueLive vf n then refuse 5 s
        else .result 0 (s.setVf vf fun v => { v with queues := v.queues.filter (fun x => x.n != n),
                                                     grants := v.grants.filter fun g => g.source != .queue vf n }) 0
    else
      let level := leAt b 11 1
      let weight := leAt b 12 1
      let aging := leAt b 14 2
      if 7 < level || weight = 0 || aging = 0 || 2 ^ 20 ≤ leAt b 16 4 then refuse 3 s
      else if old.isSome then refuse 5 s
      else
        let x : Queue := ⟨n, c.id, some (leAt b 16 4), leAt b 24 8, level, weight, aging, 0, []⟩
        .result 0 (s.setVf vf fun v => { v with queues := v.queues ++ [x] }) 0

/-- QUEUE_CONFIGURE (R295). -/
def execQueueConfigure (vf queue : Nat) (s : State) : Result := .next (s.consume vf queue (· == 0x18) (s.configureQueue vf))

/-- The packet types of R299. -/
def packetTypes : List Nat := [0x01, 0x08, 0x09, 0x10, 0x11, 0x12, 0x13, 0x14, 0x15, 0x16, 0x17, 0x18]

/-- UNKNOWN_PACKET_TYPE (R298): result 0x01. -/
def execUnknownPacketType (vf queue : Nat) (s : State) : Result :=
  .next (s.consume vf queue (fun t => !packetTypes.contains t) fun _ _ => refuse 1 s)

/-! ### Work-graph nodes (R315, R316) -/

/-- Change a node of a context. -/
def State.setNode (s : State) (ctx n : Nat) (f : Node → Node) : State :=
  s.setCtx ctx fun c => { c with nodes := mapWhere (fun x => x.n == n) f c.nodes }

/-- NODE_TIMER_EXPIRY (R315): the records that are in no batch yet form one, the timer of its oldest record having lapsed, as time passes the cycle
of the lapse. -/
def execNodeTimerExpiry (ctx node : Nat) (s : State) : Result :=
  .next (match (s.ctx? ctx).bind fun c => c.nodes.find? fun x => x.n == node with
    | none => s
    | some x =>
      match x.records[x.due.sum]? with
      | none => s
      | some (time, _) =>
        s.passTo (time + x.timerUs * cyclesPerUs + 1))

/-- Bring the tiles that hold a byte of the first 2 MiB of a record's tensor into L2 (R316), silently. -/
def State.keyPrefetch (s : State) (part ctx handle : Nat) : State :=
  match s.useRecord ctx handle with
  | .error _ => s
  | .ok r =>
    let up (n d : Nat) : Nat := (n + d - 1) / d
    let tiles := (List.range (up (r.dim 1 * r.dim 2 * r.dim 3) (2 ^ r.rows))).flatMap fun i =>
      (List.range (up (r.dim 0) (2 ^ r.cols))).map fun j => r.addresses i j
    ((tiles.filter fun as => as.any fun a => decide (a < r.base + 2 ^ 21)).flatten.map fun va => va / 64 * 64).eraseDups.foldl
      (fun s va => s.prefetch ⟨.engine part 0, ctx, false⟩ .engineRead va) s

/-- The keyed records of a batch bring their key-table tiles into L2, once for each key (R316). An entry whose flag bits 14:0 are not all zero, as R316
says they are, is not used; the model's choice (log 78). -/
def State.prefetchKeys (s : State) (c : Ctx) (n : Node) (batch : List (Nat × List Byte)) : State :=
  match n.key with
  | none => s
  | some k =>
    if c.keyTable = 0 then s
    else
      ((batch.map fun r => leAt r.2 (4 * k) 4).eraseDups).foldl (fun s key =>
        match s.frontRead c.id (c.keyTable + 16 * (key % 4096)) 16 with
        | none => s.unitReads c.id [(c.keyTable + 16 * (key % 4096), 16)]
        | some e =>
          let s := s.unitReads c.id [(c.keyTable + 16 * (key % 4096), 16)]
          if leAt e 0 4 != key || leAt e 4 2 != 2 ^ 15 then s
          else ((List.range 5).map fun i => leAt e (6 + 2 * i) 2).foldl (fun s h =>
            if h = 0 then s else s.keyPrefetch (((s.vfOf c.id).bind (·.part)).getD 0) c.id h) s) s

/-- NODE_BATCH_LAUNCH (R263, R315): the first batch becomes a node grid, once its class has a frame. A node whose kernel has ceased to be
valid launches nothing and keeps its batch. R316 does not say when the tiles that keyed records select are brought into L2: here when the batch is
launched, not when a record is accepted; the model's choice (log 78). -/
def State.launchBatch (s : State) (ctx node : Nat) : State :=
  match s.ctx? ctx with
  | none => s
  | some c =>
    match c.nodes.find? fun x => x.n == node with
    | none => s
    | some x =>
      match x.due, s.kernel ctx x.kernel, s.freeFrame ctx (frameClass x.frame) with
      | k :: more, some kernel, some f =>
        if c.failed then s
        else
          let batch := x.records.take k
          let r : GridRequest :=
            { ctx := ctx, parent := none, launcher := none, descriptor := x.kernel, size := x.frame, teams := 1, coop := false, level := 0,
              display := [], parentFrame := 0, source := .node ctx node, prio := x.level, packet := none, task := none,
              mask := maskOf (List.range k), contents := batch.flatMap (·.2) }
          let s := s.setNode ctx node fun x => { x with records := x.records.drop k, due := more }
          ((s.prefetchKeys c x batch).unitReads ctx (s.kernelReads ctx 5 x.kernel)).createGrid r kernel f |>.1
      | _, _, _ => s

/-- NODE_BATCH_LAUNCH (R315). -/
def execNodeBatchLaunch (ctx node : Nat) (s : State) : Result := .next (s.launchBatch ctx node)

end Sys2Proof.Machine
end

