-- ==== Sys2Proof/Machine/Preempt.lean ====
section
/-!
DEFINITION. Checkpoints as events (R333), pre-emption with rollback and save (R336 to R339), restore (R338), and the turns of the
virtual devices (R311 to R313, R348).
-/

namespace Sys2Proof.Machine

/-! ### Checkpoints (R333) -/

/-- CHECKPOINT_INTERVAL_EXPIRY (R333): the interval of the partition has passed since the context's previous checkpoint. -/
def execCheckpointIntervalExpiry (ctx : Nat) (s : State) : Result :=
  .next (match s.ctx? ctx with
    | none => s
    | some c =>
      if c.paused || c.savedOut then s
      else
        let us := (((s.vf? c.vf).bind (·.part)).bind fun p => (s.part? p).map (·.checkpointUs)).getD 1000
        (s.passTo (c.checkpointAt + us * cyclesPerUs)).checkpoint ctx)

/-- An irrevocable store or atomic of the warp has not been performed (R335). -/
def State.irrevocablePending (s : State) (w : Warp) : Bool :=
  (s.stores.any fun p => p.warp == w.id && p.irrevocable) ||
    w.loads.any fun l => match l.kind with | .atomic _ _ _ irr _ => irr | _ => false

/-- CHECKPOINT_END (R333, R335): the warps of the context may issue, but for those that wait for a further checkpoint. -/
def State.checkpointEnds (s : State) (ctx : Nat) : State :=
  match s.ctx? ctx with
  | none => s
  | some c =>
    if !c.paused then s
    else
      let s := s.setCtx ctx fun c => { c with paused := false }
      s.mapWarps (fun w => w.id.ctx == ctx) fun w => { w with awaitCheckpoint := s.irrevocablePending w }

/-- CHECKPOINT_END (R333). -/
def execCheckpointEnd (ctx : Nat) (s : State) : Result := .next (s.checkpointEnds ctx)

/-! ### Rollback (R336, R337, R339) -/

/-- A line gets back the bytes and marks it had at the checkpoint (R334, R336). -/
def State.undoLine (s : State) (u : UndoLine) : State :=
  { s with mem := s.mem.writeBytes u.ha u.bytes, marks := u.marks ++ s.marks.filter fun m => lineOf m.1 != u.ha }

/-- A warp as its checkpoint kept it: it stays stopped if it has stopped since (R339), or its grid is terminating (R267, R268), and its sleep
keeps what was left of it. -/
def State.rolledWarp (s : State) (c : Ctx) (w : Warp) : Warp :=
  let now := (s.warp? w.id).getD w
  let saved := (c.snapshot.teams.any fun t => t.id == w.id.teamId && t.st == .saved)
  let ending := (s.grid? w.id.ctx w.id.grid).any fun g => g.status == 3
  { w with
    active := false, hold := Vector.replicate 2 none, yielded := Vector.replicate 2 false, atSwitch := none, awaitCheckpoint := false
    stopped := w.stopped || now.stopped || ending, recordStands := w.recordStands || now.recordStands
    sleepUntil := if saved then w.sleepUntil else w.sleepUntil.map fun d => d - c.checkpointAt
    -- a stopped warp of a terminating grid is held in no `joinw` (R259)
    joining := if ending then none else w.joining }

/-- A team as its checkpoint kept it; its switch request survives, unless the switch itself is rolled back to before it (R320, R339). -/
def rolledTeam (old now : Team) : Team :=
  let request := (if old.variant == now.variant then now.request else old.request).map fun (r : SwitchReq) => { r with point := none, arrived := [] }
  { old with request := request, st := .saved, saveHas := now.saveHas, saveOk := now.saveOk }

/-- A copy issued before the checkpoint that has completed since: its token, arrival and flags go into the saved records (R337). -/
def State.landCopy (s : State) (c : Copy) : State :=
  let r := match s.team? c.warp.teamId with
    | none => (s, c.code)
    | some t => let q := t.copyArrive c; (s.putTeam q.1, q.2)
  (r.1.setWarp c.warp fun w => w.copyDone c r.2).settleCopies c.warp

/-- The context returns to its latest checkpoint (R336 steps 2 and 3), its teams off their cores. Its matrix operations stay in the snapshot
until their teams are restored, and its translations go, since page-table writes may have been undone (R339). -/
def State.rollback (s : State) (ctx : Nat) : State :=
  match s.ctx? ctx with
  | none => s
  | some c =>
    let kept := c.snapshot.teams.filterMap fun t => (s.team? t.id).map fun now => rolledTeam t now
    let alive (id : TeamId) : Bool := kept.any fun t => t.id == id
    let ws := (c.snapshot.warps.filter fun w => alive w.id.teamId).map (s.rolledWarp c)
    let s : State := s.mapWarps (fun w => w.id.ctx == ctx) fun w => { w with present := false }
    let s : State := { s with w := if s.w.present then s.w else Warp.vacant, rest := (s.rest.filter (·.present)) ++ ws }
    let s : State := kept.foldl (fun s t => s.releaseClaims t.id) s
    let s : State :=
      { s with
        teams := (s.teams.filter fun t => t.id.ctx != ctx) ++ kept
        ops := s.ops.filter fun o => o.ctx != ctx
        stores := (s.stores.filter fun p => p.warp.ctx != ctx) ++ c.snapshot.stores
        copies := s.copies.filter fun x => x.warp.ctx != ctx || decide (x.id < c.snapshot.nextCopy)
        latches := s.latches.filter fun l => l.team.ctx != ctx
        l1 := s.l1.filter fun x => x.ctx != ctx
        tlb := s.tlb.filter fun e => e.ctx != ctx
        cores := s.cores.map fun k => { k with ibuf := k.ibuf.filter fun b => b.ctx != ctx } }
    let s : State := c.undo.foldl State.undoLine s
    let s : State := c.snapshot.landed.foldl State.landCopy s
    let s : State := s.mapWarps (fun w => w.id.ctx == ctx) fun w => { w with awaitCheckpoint := s.irrevocablePending w }
    let s : State := (s.clearUndo ctx).setCtx ctx fun c => { c with pagePools := c.snapshot.pools, paused := false }
    (s.grids.filter fun g => g.ctx == ctx).foldl (fun s g => s.joinWaiter ctx g.id) s

/-! ### Save and restore (R337, R338) -/

/-- Bytes that the manual leaves private to the device (R338): free. -/
def freeBytes (ix n : Nat) : List Byte := (List.range n).map fun k => (Config.freeWord (ix + k)).extractLsb' 0 8

/-- A sector of a save record is written, its bytes free: the state, the sectors' homes, and whether all could be written. -/
def State.saveSector (acc : State × List Nat × Bool) (ctx va : Nat) : State × List Nat × Bool :=
  let s := acc.1
  match s.walk ctx va with
  | .error _ => (s, acc.2.1, false)
  | .ok l =>
    if 2 ^ 57 ≤ va || s.storeCode ctx (l.home va) != 0 then (s, acc.2.1, false)
    else
      let bytes := freeBytes s.freeIx 64
      ({ (s.homeStore none ctx (l.home va) bytes).afterAccepted false [(l.home va, bytes)] with freeIx := s.freeIx + 64 }, acc.2.1 ++ [l.home va], acc.2.2)

/-- The sectors of the 2 MiB from save + j × 2 MiB that the record takes: its layout is private to the device (R338), so that each of them
may be one (log 18); the first always is. -/
def State.saveSectors (s : State) (va : Nat) : List Nat :=
  va :: ((rangeFrom 1 32767).filter fun i => (Config.freeWord (s.freeIx + i)).getLsbD 0).map fun i => va + 64 * i

/-- The team's resident pages go to backing, and its save record is written (R338). -/
def State.saveTeam (s : State) (t : Team) : State :=
  let s := (t.pages.filter fun p => match p.st with | .resident | .remote _ => true | _ => false).foldl (fun s p => s.spadEvict t p) s
  let va := ((s.controlBlock t.id.ctx).map fun b => leAt b 32 8).getD 0 + t.slot * 2 ^ 21
  match s.walk t.id.ctx va with
  | .error _ => s.setTeam t.id fun t => { t with saveHas := [], saveOk := false }
  | .ok _ =>
    let r := (s.saveSectors va).foldl (fun acc va => State.saveSector acc t.id.ctx va) ({ s with freeIx := s.freeIx + 32768 }, [], true)
    r.1.setTeam t.id fun t => { t with saveHas := r.2.1, saveOk := r.2.2 }

/-- PRE_EMPTION (R336): rollback to the checkpoint, and the save of every team that is not saved yet. -/
def State.preempt (s : State) (ctx : Nat) : State :=
  match s.ctx? ctx with
  | none => s
  | some c =>
    if c.savedOut then s
    else
      let before := s.teams.filter fun t => t.id.ctx == ctx && t.st == .saved
      let s := s.rollback ctx
      let fresh := s.teams.filter fun t => t.id.ctx == ctx && !(before.any fun b => b.id == t.id)
      let s := fresh.foldl State.saveTeam s
      let s := (s.clearUndo ctx).setCtx ctx fun c => { c with savedOut := true, checkpointAt := s.clock }
      let n := s.snapshot ctx
      let cores := (before ++ fresh).map (·.core)
      (cores.foldl State.roomChanged s).setCtx ctx fun c => { c with snapshot := n }

/-- A store of a team has not been acknowledged. -/
def State.storesOut (s : State) (id : TeamId) : Bool := s.stores.any fun p => p.warp.teamId == id && !p.acked

/-- Where a saved team may be restored: on the core it left if it fits there, else on the first core in scan order (R338, R341) that is not to be
avoided. One of whose stores no link has carried yet returns to its own core only, where they are in order (R281). -/
def State.restorePlace (s : State) (avoid : List CoreId) (t : Team) : Option (CoreId × Nat × List Block) :=
  let away := if s.storesOut t.id then [] else (s.scanOrder t.core.part).filter fun c => !avoid.contains c
  let cs := if s.staysOn t then t.core :: away else away
  cs.findSome? fun c => (s.roomFor c t).map fun r => (c, r.1, r.2)

/-- A saved team returns to a core with its claims and its checkpointed matrix operations (R338, R341). -/
def State.restoreOn (s : State) (t : Team) (core : CoreId) (h : Nat) (bs : List Block) : State :=
  let snap := ((s.ctx? t.id.ctx).map (·.snapshot)).getD Snapshot.empty
  let slots := t.slotMap.filterMap fun p => (snap.slots.find? fun x => x.1 == t.core && x.2.1 == p.2 && x.2.2.claim == some t.id).map (·.2.2)
  let accs := t.accMap.filterMap fun p => (snap.accs.find? fun x => x.1 == t.core && x.2.1 == p.2 && x.2.2.claim == some t.id).map (·.2.2)
  let ops := if (s.grid? t.id.ctx t.id.grid).any (fun g => g.status == 3) then [] else snap.ops.filter fun o => o.warp.teamId == t.id
  let s := ({ s with ops := s.ops ++ ops } : State).reserveOn core t
  let s := (s.moveClaims t core slots accs).seatTeam t core h bs
  let s := s.mapWarps (fun w => w.id.teamId == t.id) fun w => { w with sleepUntil := w.sleepUntil.map (· + s.clock) }
  s.setTeam t.id fun t => { t with saveHas := [], saveOk := true }

/-- A team in its save record whose copies have all completed (R337). -/
def State.restorable (s : State) (t : Team) : Bool := t.st == .saved && !s.awaitsCopies t

/-- Restore teams together, or none (R275, R338). -/
def State.restoreAll (s : State) (avoid : List CoreId) : List Team → Option State
  | [] => some s
  | t :: rest => match s.restorePlace avoid t with | none => none | some (c, h, bs) => (s.restoreOn t c h bs).restoreAll avoid rest

/-- Restore the groups of a list that fit, one after another. -/
def State.restoreEach (s : State) (avoid : List CoreId) (groups : List (List Team)) : State :=
  groups.foldl (fun s g => (s.restoreAll avoid g).getD s) s

/-- A restore begins (R338): the context is scheduled, the stores of its saved teams that links can carry are acknowledged (R280), and records whose
check value fails terminate their grids with 0x16. -/
def State.restoreBegins (s : State) (ctx : Nat) : State :=
  let s : State := s.setCtx ctx fun c => { c with savedOut := false }
  let saved := s.teams.filter fun t => t.id.ctx == ctx && t.st == .saved
  let s := (s.stores.filter fun p => !p.acked && saved.any fun t => t.id == p.warp.teamId).foldl (fun s p => s.storeAck p.warp p.id) s
  let broken := (saved.filter fun t => !t.saveOk).map (·.id.grid)
  broken.eraseDups.foldl (fun s g => s.terminate ctx g 0x16 0) s

/-- The saved teams of some contexts that may be restored now, as they are restored: each for itself, those of a cooperative grid together (R275, R338).
The teams of a group that return to their cores go first (R354). -/
def State.restoreGroups (s : State) (ctxs : List Nat) : List (List Team) :=
  let saved := s.teams.filter fun t => t.st == .saved && ctxs.contains t.id.ctx && !((s.grid? t.id.ctx t.id.grid).any fun g => g.status == 3)
  let coop (t : Team) : Bool := (s.grid? t.id.ctx t.id.grid).any (·.coop)
  let whole (k : Nat × Nat) : List Team := saved.filter fun t => (t.id.ctx, t.id.grid) == k
  let grids := ((saved.filter coop).map fun t => (t.id.ctx, t.id.grid)).eraseDups.filter fun k => (whole k).all s.restorable
  (((saved.filter fun t => !coop t && s.restorable t).map fun t => [t]) ++ grids.map fun k => (whole k).filter s.staysOn ++ (whole k).filter fun t => !s.staysOn t)

/-- For want of an aligned block alone a saved team cannot be restored: the unit of the first core that has everything else begins to compact (R26).
The other teams of its grid count with the places that they would take, and no move touches those. -/
def State.compactForRestore (s : State) (groups : List (List Team)) : State :=
  let seated (g : List Team) : State × Option Team := g.foldl (fun acc t =>
    match acc.2, acc.1.restorePlace [] t with
    | none, some (c, h, bs) => (acc.1.restoreOn t c h bs, none)
    | none, none => (acc.1, some t)
    | some x, _ => (acc.1, some x)) (s, none)
  let resident (b : Block) : Bool := (s.warp? b.warp).any fun w => !s.claimSaved (some w.id.teamId)
  ((groups.findSome? fun g =>
    let q := seated g
    q.2.bind fun t =>
      let cs := if s.staysOn t then t.core :: s.scanOrder t.core.part else s.scanOrder t.core.part
      cs.findSome? fun c =>
        if q.1.sharedFits c t.barriers.length t.spadDecl && q.1.claimsFit c t then
          s.startCompaction c ((q.1.blocks c).map fun b => { b with pinned := b.pinned || !resident b }) fun h => q.1.teamNeeds t h
        else none)).getD s

/-- CONTEXT_RESTORE (R338): the teams of contexts return where they fit. Those that return to their cores go before those that have to leave
them, whatever their contexts (R354): first single teams, then cooperative grids; of the grids of which some teams leave, one takes the core of
another's only where neither could be restored otherwise. -/
def State.restoreContexts (s : State) (ctxs : List Nat) : State :=
  let before := s
  let s := ctxs.foldl State.restoreBegins s
  let groups := s.restoreGroups ctxs
  let stays (g : List Team) : Bool := g.all s.staysOn
  let mixed := groups.filter fun g => !stays g && g.any s.staysOn
  let s := s.restoreEach [] (groups.filter stays)
  let s := mixed.foldl (fun s g =>
    (s.restoreAll ((s.teams.filter fun t => t.st == .saved && mixed.any fun m => m != g && m.any fun x => x.id == t.id && s.mayReturn t).map (·.core)) g).getD s) s
  let left (s : State) (g : List Team) : Bool := g.all fun t => (s.team? t.id).any fun x => x.st == .saved
  let s := s.restoreEach [] ((mixed.filter (left s)) ++ groups.filter fun g => !stays g && !g.any s.staysOn)
  let s := s.compactForRestore (groups.filter (left s))
  let count (s : State) (ctx : Nat) : Nat := s.teams.countP fun t => t.id.ctx == ctx && t.st == .saved
  (ctxs.filter fun ctx => (before.ctx? ctx).any (·.savedOut) || count s ctx != count before ctx).foldl (fun s ctx =>
    (s.checkpoint ctx).setCtx ctx fun x => { x with paused := ((s.ctx? ctx).map (·.paused)).getD false }) s

/-! ### Turns (R311 to R313) -/

/-- The device has work (R311): a live or pending grid, a ready task, or a consumable packet. -/
def State.hasWork (s : State) (v : Vf) : Bool :=
  let mine (ctx : Nat) : Bool := ((s.ctx? ctx).map fun c => c.vf == v.n).getD false
  (s.grids.any fun g => mine g.ctx) || (s.ctxs.any fun c => c.vf == v.n && !c.failed && !c.ready.isEmpty) ||
    v.queues.any fun q => s.consumable v.n q.n

/-- The contexts of a function. -/
def State.ctxsOf (s : State) (vf : Nat) : List Nat := (s.ctxs.filter fun c => c.vf == vf).map (·.id)

/-- When the closing pre-emption of a partition's turn begins at the latest (R311): the deficit with which the turn began has fallen to 60 µs. -/
def State.turnLimit (s : State) (p : Partition) : Option Nat :=
  (p.turn.bind s.vf?).map fun v => p.turnSince + (v.deficitUs - 60) * cyclesPerUs

/-- The partition whose turn closes soonest, and when. -/
def State.nextLimit (s : State) : Option (Nat × Nat) :=
  (s.parts.filterMap fun p => (s.turnLimit p).map fun d => (d, p.n)).foldl
    (fun (b : Option (Nat × Nat)) x => match b with | none => some x | some y => if x.1 < y.1 then some x else some y) none

/-- Feature masks take effect at the start of a turn (R348, R379); a locked or running interface keeps its mask (R363). -/
def State.applyMasks (s : State) (vf : Nat) : State :=
  match s.vf? vf with
  | none => s
  | some v =>
    if v.pendingMask.isEmpty || v.tdisp == .locked || v.tdisp == .run then s
    else
      let masked := v.pendingMask.foldl (fun l m => if m.2 then m.1 :: l.filter (· != m.1) else l.filter (· != m.1)) v.masked
      (s.setVf vf fun v => { v with masked := masked, pendingMask := [] }).topologyEvent [vf]

/-- A turn of a function begins, or is renewed: its deficit is its quantum, and its masks take effect. -/
def State.beginTurn (s : State) (part vf : Nat) : State :=
  ((s.setPart part fun p => { p with turn := some vf, turnSince := s.clock }).setVf vf fun v => { v with deficitUs := v.quantumUs }).applyMasks vf

/-- TURN_END (R311, R313): the turn is renewed when no other device has work, else its contexts are pre-empted. -/
def State.turnEnds (s : State) (part : Nat) : State :=
  match s.part? part with
  | none => s
  | some p =>
    match p.turn.bind s.vf? with
    | none => s.setPart part fun p => { p with turn := none }
    | some v =>
      let work := s.hasWork v
      let others := (s.ring part).any fun x => x.n != v.n && s.hasWork x
      let s := if work then s.passTo ((s.turnLimit p).getD s.clock) else s
      if work && !others then s.beginTurn part v.n
      else
        let s := (s.ctxsOf v.n).foldl State.preempt s
        (s.setPart part fun p => { p with turn := none, lastTurn := v.n }).setVf v.n fun v => { v with deficitUs := 0 }

/-- TURN_END (R311). -/
def execTurnEnd (part : Nat) (s : State) : Result := .next (s.turnEnds part)

/-- Teams of a function wait in their save records. -/
def State.waiting (s : State) (vf : Nat) : List Nat :=
  (s.ctxs.filter fun c => c.vf == vf && !c.failed && (c.savedOut || s.teams.any fun t => t.id.ctx == c.id && s.restorable t)).map (·.id)

/-- TURN_START (R311, R338): the next device in the ring with work; within a turn, teams that found no room are tried again. -/
def State.turnStarts (s : State) (part : Nat) : State :=
  match s.part? part with
  | none => s
  | some p =>
    if s.sluice.change.isSome then s
    else
      match p.turn with
      | some v => s.restoreContexts (s.waiting v)
      | none =>
        let able := (s.ring part).filter s.hasWork
        match (able.find? fun v => decide (p.lastTurn < v.n)).or able.head? with
        | none => s
        | some v =>
          let s := s.beginTurn part v.n
          s.restoreContexts (s.waiting v.n)

/-- TURN_START (R311). -/
def execTurnStart (part : Nat) (s : State) : Result := .next (s.turnStarts part)

end Sys2Proof.Machine
end

