-- ==== Sys2Proof/Machine/Links.lean ====
section
/-!
DEFINITION. What arrives over the host link and the weft links: reads and writes of device memory (R93, R334, R375), requests of peers
(R80, R208), flits and their timeouts (R364), and the notice of a peer's reset (R347).
-/

namespace Sys2Proof.Machine

/-! ### Device memory as the links reach it

A request of the host or of a peer to a sector for which the bank has accepted a store or an atomic that waits there for an engine's data
waits with it, so that it reads or writes after what was accepted before it (R283, R286); its event then changes nothing and may come
again (log 61). -/

/-- The frame is in service: valid and not retired (R78). -/
def State.inService (s : State) (ha : Nat) : Bool :=
  decide (ha < dramBytes) && s.owners.any fun f => f.frame == ha / 65536 && f.valid && !f.retired

/-- The owner of the frame of an address. -/
def State.ownerOf (s : State) (ha : Nat) : Option Nat := (s.owners.find? fun f => f.frame == ha / 65536 && f.valid).map (·.owner)

/-- A checkpoint of the owner precedes a link's write to a line that holds one of its undo entries (R334). -/
def State.beforeLinkWrite (s : State) (ha : Nat) : State :=
  match s.ownerOf ha with
  | none => s
  | some ctx =>
    if ((s.ctx? ctx).map fun c => c.undo.any fun u => u.ha == lineOf ha).getD false then s.checkpoint ctx else s

/-- The sector pieces of a physical range. -/
def physPieces (pa n : Nat) : List (Nat × Nat) := pieces (n / 64 + 2) pa n

/-- Write one sector piece that arrives over the host link: a whole sector makes a new check value, a part leaves poison (R93, R94). -/
def State.linkWrite (s : State) (ha : Nat) (bytes : List Byte) : State :=
  let s := s.beforeLinkWrite ha
  let whole := bytes.length == 64
  let s := { s with mem := s.mem.writeBytes ha bytes }
  let s := if whole then s.setMark (sectorOf ha) none else s
  let bit := if whole then 2 ^ (ha % 256 / 64) else 0
  let upd (l : L2Line) : L2Line := { l with dirty := true, filled := l.filled ||| bit, written := l.written ||| byteBits ha bytes.length }
  { s with l2 := mapWhere (fun l => l.ha == lineOf ha) upd s.l2 }.hitSaves ha

/-- HOST_WRITE (R93, R78). Before the host link is enabled, and in the recovery state, nothing answers (R367). -/
def State.hostWrite (s : State) (pa : Nat) (bytes : List Byte) : State :=
  let ps := physPieces pa bytes.length
  if !s.linkUp then s
  else if !ps.all fun p => s.inService p.1 then s.send (.completer false)
  else if ps.any fun p => s.bankAwaits p.1 then s
  else (ps.foldl (fun s p => s.linkWrite p.1 ((bytes.drop (p.1 - pa)).take p.2)) s).send (.completer true)

/-- HOST_WRITE (R93). -/
def execHostWrite (pa : Nat) (bytes : List Byte) (s : State) : Result := .next (s.hostWrite pa bytes)

/-- HOST_READ (R93, R375, R367): a sector whose check value fails as it leaves is poisoned; a poisoned one sets the poisoned-TLP bit. -/
def State.hostRead (s : State) (pa size : Nat) : State :=
  let ps := physPieces pa size
  if !s.linkUp then s
  else if !ps.all fun p => s.inService p.1 then s.send (.completer false)
  else if ps.any fun p => s.bankAwaits p.1 then s
  else
    let s := ps.foldl (fun s p => s.verify (sectorOf p.1)) s
    s.send (.readData (s.mem.readBytes pa size) (ps.any fun p => s.mark (sectorOf p.1) == some .poisoned))

/-- HOST_READ (R375). -/
def execHostRead (pa size : Nat) (s : State) : Result := .next (s.hostRead pa size)

/-! ### Requests of peer devices (R80, R208) -/

/-- What the sector pieces of a peer's request meet for a context: the first code that refuses them, and whether one of them is poisoned. -/
def State.piecesCode (s : State) (ctx : Nat) (ps : List (Nat × Nat)) : Code × Bool :=
  ps.foldl (fun (c : Code × Bool) p =>
    let k := if dramBytes ≤ p.1 then 0x0A else s.sectorCode ctx p.1 p.2
    if k == 0x15 then (c.1, true) else (if c.1 != 0 then c.1 else k, c.2)) (0, false)

/-- A sector for a peer is filled, and verified as it leaves (R93, R94). -/
def State.leave (s : State) (ctx : Nat) (ps : List (Nat × Nat)) : State :=
  ps.foldl (fun s p => (s.sectorFill ctx p.1 p.2).verify (sectorOf p.1)) s

/-- Write one sector piece that arrives over a weft link: its flit's poison bit comes with it (R364). -/
def State.weftWrite (s : State) (ctx ha : Nat) (bytes : List Byte) (poisoned : Bool) : State :=
  let s := (s.beforeLinkWrite ha).homeStore none ctx ha bytes
  if poisoned then s.setMark (sectorOf ha) (some .poisoned) else s

/-- The sector pieces that a peer's request touches. -/
def requestPieces (r : WeftRequest) : List (Nat × Nat) :=
  match r.kind with
  | .load size => physPieces r.pa size
  | .store bytes _ => physPieces r.pa bytes.length
  | .atomic _ _ _ size _ _ => [(r.pa, size)]

/-- WEFT_INGRESS_REQUEST (R80): the identity's local context is checked under R79 and the request performed; a poisoned sector is sent with
its poison bit (R375). In the recovery state nothing is answered (R367). -/
def State.weftRequest (s : State) (r : WeftRequest) : State :=
  if s.sluice.recovery then s
  else
    match (s.ingress.find? fun e => e.1 == r.identity).map (·.2) with
    | none => s.send (.weftRefused 0x0A)
    | some ctx =>
      if (requestPieces r).any fun p => s.bankAwaits p.1 then s
      else
        match r.kind with
        | .load size =>
          let ps := physPieces r.pa size
          let c := s.piecesCode ctx ps
          let stale := c.1 == 0 && ps.any fun p => !s.verifies (sectorOf p.1)
          let s := s.leave ctx ps
          if c.1 != 0 then s.send (.weftRefused c.1)
          else if stale then s.send (.weftRefused 0x16)
          else s.send (.weftAnswer (s.mem.readBytes r.pa size) c.2)
        | .store bytes poisoned =>
          let ps := physPieces r.pa bytes.length
          match ps.find? fun p => decide (dramBytes ≤ p.1) || s.storeCode ctx p.1 != 0 with
          | some _ => s.send (.weftRefused 0x0A)
          | none => (ps.foldl (fun s p => s.weftWrite ctx p.1 ((bytes.drop (p.1 - r.pa)).take p.2) poisoned) s).send (.completer true)
        | .atomic code isUnsigned isFloat size opnd cmp =>
          let c := s.piecesCode ctx [(r.pa, size)]
          if c.1 != 0 then (s.sectorFill ctx r.pa size).send (.weftRefused c.1)
          else if c.2 then s.send (.weftRefused 0x15)
          else
            let s := (s.beforeLinkWrite r.pa).sectorFill ctx r.pa size
            let old := BitVec.ofNat 64 (s.mem.readNat r.pa size)
            let res := atomicResult code isUnsigned isFloat size old opnd cmp
            let s := if atomicWrites code old cmp then s.homeStore none ctx r.pa (leBytes size res.1.toNat) else s
            s.send (.weftAnswer (leBytes size old.toNat) false)

/-- WEFT_INGRESS_REQUEST (R80). -/
def execWeftIngressRequest (r : WeftRequest) (s : State) : Result := .next (s.weftRequest r)

/-! ### Flits and timeouts (R364) -/

/-- WEFT_FLIT_RECEIVE (R364): a flit that fails its CRC is replayed; more than 16 replays of one flit take the link down. -/
def execWeftFlitReceive (link : Nat) (crcOk : Bool) (s : State) : Result :=
  let count (l : WeftLink) : WeftLink := if crcOk then { l with replays := 0 } else { l with replays := l.replays + 1, up := decide (l.replays + 1 ≤ 16) }
  let fell := !crcOk && s.links.any fun l => l.n == link && l.up && decide (16 < l.replays + 1)
  .next { s with links := mapWhere (fun l => l.n == link && l.up) count s.links, cutAt := if fell then s.clock else s.cutAt }

/-- WEFT_REQUEST_TIMEOUT (R364): the earliest outstanding request of a warp that no link carries ends with 0x16, once 10 ms have passed in
which none could; a fetch or an access that has waited so long for its issue goes on to meet 0x16. -/
def State.weftTimeout (s : State) (id : WarpId) : State :=
  match s.warp? id with
  | none => s
  | some w =>
    let lost (l : List LaneReq) : List (LaneAddr × Code) := (l.filter fun r => !s.reachable r.ha).map fun r => ((r.lane, r.va), 0x16)
    let dead (l : List Nat) : Bool := l.any fun h => !s.reachable h
    match w.loads.find? fun x => x.data.isNone && !(lost x.lanes).isEmpty with
    | some x =>
      let isAtomic := match x.kind with | .atomic .. => true | _ => false
      let s := s.passTo (s.linkEnd x.since)
      (s.setWarp id fun w => { w with loads := w.loads.filter fun y => y.id != x.id }).stopPerformed id x.pc (lost x.lanes) isAtomic
    | none =>
      match s.stores.find? fun (p : PendStore) => p.warp == id && !(lost (p.lanes.map fun l => l.1)).isEmpty with
      | some p =>
        let s' : State := { s.passTo (s.linkEnd p.since) with stores := s.stores.filter fun x => x.id != p.id }
        s'.stopPerformed id p.pc (lost (p.lanes.map (·.1))) true
      | none =>
        match s.copies.find? fun c => c.warp == id && !c.performed && dead (c.reads ++ c.lines) with
        | some c => (s.passTo (s.linkEnd c.since)).copyOver c.id 0x16 0
        | none =>
          match s.ops.find? fun o => o.warp == id && !o.done && !o.faulted && dead (o.reads ++ o.lines) with
          | some o => (s.passTo (s.linkEnd o.since)).opFault o 0x16 0 false
          | none =>
            match [(0 : Fin 2), 1].findSome? fun k => if w.hold[k] == some .link then w.linkWait[k] else none with
            | some t => s.passTo (s.linkEnd t)
            | none => s

/-- WEFT_REQUEST_TIMEOUT (R364). -/
def execWeftRequestTimeout (w : WarpId) (s : State) : Result := .next (s.weftTimeout w)

/-- A record of source 2 (R347): code 0x0A, which the info field repeats (R326), no address; what R325 has no value for is free (log 16). -/
def remoteRecord (free clock : Nat) : List Byte :=
  let f (k : Nat) : List Byte := leBytes 4 (Config.freeWord (free + k)).toNat
  leBytes 1 0x0A ++ leBytes 1 0 ++ leBytes 1 2 ++ leBytes 1 0 ++ f 0 ++ f 1 ++ leBytes 2 (Config.freeWord (free + 2)).toNat ++
    leBytes 1 (Config.freeWord (free + 3)).toNat ++ leBytes 1 0 ++ leBytes 8 (leNat (f 4 ++ f 5) % 2 ^ 57) ++ leBytes 8 0 ++ f 6 ++ leBytes 4 0x0A ++
    f 8 ++ f 9 ++ leBytes 8 clock ++ leBytes 8 0

/-- PEER_REMOTE_ABORT (R347): each local context mapped to the peer's context gets a record in its own fault queue. -/
def State.peerAbort (s : State) (device peerCtx : Nat) : State :=
  let mine := ((s.ingress.filter fun e => e.1 == device * 4096 + peerCtx).map (·.2)).eraseDups
  mine.foldl (fun s ctx => (({ s with freeIx := s.freeIx + 10 } : State).faultRecord ctx (remoteRecord s.freeIx s.clock)).1) s

/-- PEER_REMOTE_ABORT (R347). -/
def execPeerRemoteAbort (device peerCtx : Nat) (s : State) : Result := .next (s.peerAbort device peerCtx)

end Sys2Proof.Machine
end

