-- ==== Sys2Proof/Machine/Platform.lean ====
section
/-!
DEFINITION. The sluice controller: errors (R370 to R374), Function Level Reset (R346, R347), start-up (R367), roles (R350 to R353),
partitions and place tables (R355 to R361), and the management commands of R369.
-/

namespace Sys2Proof.Machine

/-! ### Failing and reclaiming contexts (R346, R373) -/

/-- CONTEXT_FAILED (R373): its grids are terminated with 0x16 and no record, and queue 0 receives event 0x41. -/
def State.failContext (s : State) (ctx : Nat) : State :=
  match s.ctx? ctx with
  | none => s
  | some c =>
    if c.failed then s
    else
      let s := s.setCtx ctx fun c => { c with failed := true }
      let stop (s : State) (g : Grid) : State :=
        if g.status == 3 then s
        else (s.setGrid ctx g.id fun g => { g with status := 3, code := 0x16, recordAddr := 0 }).stopGrid ctx g.id
      (((s.grids.filter fun g => g.ctx == ctx).foldl stop s).settle).queue0Event c.vf 0x41 ctx

/-- A core forgets a context: its code blocks, its cached records, its claims, and that it was the last holder of an accumulator, since another
context may take its number (R102, R214, R222). -/
def Core.forget (c : Core) (ctx : Nat) : Core :=
  { c with
    ibuf := c.ibuf.filter fun b => b.ctx != ctx
    records := c.records.filter fun r => r.ctx != ctx
    slots := c.slots.map fun x => if x.claim.any fun t => t.ctx == ctx then ⟨none, false, none, false⟩ else x
    accs := c.accs.map fun x =>
      let x := if x.claim.any fun t => t.ctx == ctx then { x with claim := none, release := false, logged := none } else x
      if x.lastCtx == some ctx then { x with lastCtx := none, logged := none } else x }

/-- A function forgets a context: its queues, and what the distributor knew of its sources (R308, R309). -/
def Vf.forget (v : Vf) (ctx : Nat) : Vf :=
  let gone (x : Source) : Bool :=
    match x with
    | .queue _ n => v.queues.any fun q => q.n == n && q.n != 0 && q.ctx == ctx
    | .node c _ => c == ctx
    | .tasks c => c == ctx
  { v with queues := v.queues.filter (fun q => q.n == 0 || q.ctx != ctx), grants := v.grants.filter (fun g => !gone g.source)
           reserved := v.reserved.filter fun c => !gone c.source }

/-- Everything that a context holds is released: its grids are killed and retire (R268, R301), its warps, teams, accesses, lines,
translations and queues go, and its frames leave its ownership, zeroed when `zero`. -/
def State.reclaim (s : State) (ctx : Nat) (zero : Bool) : State :=
  let roots := (s.grids.filter fun g => g.ctx == ctx).map (·.id)
  let s : State := s.killGrids ctx (2 * s.grids.length + 1) roots
  let s : State := s.mapWarps (fun w => w.id.ctx == ctx) fun w => { w with present := false }
  let s : State := { s with w := if s.w.present then s.w else Warp.vacant, rest := s.rest.filter (·.present) }
  let s : State :=
    { s with
      ops := s.ops.filter fun o => o.ctx != ctx
      stores := s.stores.filter fun p => p.warp.ctx != ctx
      copies := s.copies.filter fun c => c.warp.ctx != ctx
      latches := s.latches.filter fun l => l.team.ctx != ctx }
  let s : State := s.settle
  let s : State := (s.l2.filter fun l => l.ctx == ctx).foldl State.evictLine s
  let mine (ha : Nat) : Bool := s.owners.any fun f => f.owner == ctx && f.valid && f.frame == ha / 65536
  let s : State := if zero then { s with mem := ⟨s.mem.cells.filter fun c => !(isDram c.1 && mine c.1)⟩, marks := s.marks.filter fun m => !mine m.1 } else s
  let s : State := s.releaseFrames fun f => f.owner == ctx
  let s : State :=
    { s with
      l1 := s.l1.filter fun x => x.ctx != ctx
      tlb := s.tlb.filter fun e => e.ctx != ctx
      cores := s.cores.map fun k => k.forget ctx
      teams := s.teams.filter fun t => t.id.ctx != ctx
      ctxs := s.ctxs.filter fun c => c.id != ctx
      vfs := s.vfs.map fun v => v.forget ctx }
  { s with ingress := s.ingress.filter fun e => e.2 != ctx }

/-- CONTEXT_TEARDOWN (R373). -/
def execContextTeardown (ctx : Nat) (s : State) : Result :=
  .next (if (s.ctx? ctx).isSome then s.reclaim ctx false else s)

/-- The reset of a virtual function (R346, R347): the peers are told first, then its contexts are reclaimed and its queues dropped. Its
interface is unlocked after it, or in the error state (R363). -/
def State.resetVf (s : State) (vf : Nat) (error : Bool := false) : State :=
  if s.sluice.change.isSome then { s with sluice := { s.sluice with pendingResets := s.sluice.pendingResets ++ [(vf, error)] } }
  else
    let cs := s.ctxsOf vf
    let s : State := s.setVf vf fun v => { v with portalOpen := false }
    let mapped := cs.filter fun c => s.ingress.any fun e => e.2 == c
    let s : State := { s with ingress := s.ingress.filter fun e => !cs.contains e.2 }
    let s : State := mapped.foldl (fun s c => s.send (.remoteAbort c)) s
    let s : State := cs.foldl State.preempt s
    let s : State := cs.foldl (fun s c => s.reclaim c true) s
    s.setVf vf fun v => { v with queues := [], grants := [], pointers := [], reserved := [], msixPending := [],
                                 tdisp := if error then .error else .unlocked }

/-- FUNCTION_LEVEL_RESET (R346); during a role change it waits (R380). -/
def execFunctionLevelReset (vf : Nat) (s : State) : Result := .next (s.resetVf vf)

/-- VIRTUAL_FUNCTION_ENABLE (R295, R362): the function and its queue 0 come into existence, with the first values of its list (R378). -/
def State.enableVf (s : State) (vf : Nat) : State :=
  let queue : Queue := ⟨0, 0, none, 0, 0, 1, 1024, 0, []⟩
  if !s.linkUp || vf = 0 || 63 < vf then s
  else
    match s.vf? vf with
    | some v => if v.portalOpen then s else s.setVf vf fun v => { v with enabled := true, portalOpen := true, queues := [queue] }
    | none =>
      let v := { Vf.new vf with portalOpen := true, queues := [queue] }
      { s with vfs := s.vfs ++ [{ v with caps := s.capsOf v }] }

/-- VIRTUAL_FUNCTION_ENABLE (R295). -/
def execVirtualFunctionEnable (vf : Nat) (s : State) : Result := .next (s.enableVf vf)

/-! ### Start-up (R367) -/

/-- An image verifies and is not below the minimum version of the accepted record (R367). -/
def imageAccepted (i : Image) (minVersion : Nat) : Bool := i.valid && decide (minVersion ≤ i.version)

/-- START_UP (R2, R367): each step in order; a verification that fails leaves the part in its recovery state. -/
def State.startUp (s : State) (r : StartRecord) : State :=
  let sl := s.sluice
  if sl.started then s
  else if !r.recordValid || r.version < sl.counter then { s with sluice := { sl with started := true, recovery := true } }
  else
    let sl := { sl with
      started := true, counter := r.version, version := r.version, minVersion := r.minVersion, trim := r.trim, identityKey := some r.identityKey
      configRecord := r.bytes, sluiceImage := r.sluiceImage.bytes, heddleImage := r.heddleImage.bytes, defects := r.defects, retired := r.retired
      packingOk := r.packingOk, testImage := r.sluiceImage.test || r.heddleImage.test, stepping := r.stepping, linkWidth := r.linkWidth
      linkRate := r.linkRate }
    let s : State := { s with sluice := sl, owners := (r.retired.map fun f => ⟨f, false, true, 0, false⟩) ++ s.owners.filter fun f => !r.retired.contains f.frame }
    if imageAccepted r.sluiceImage r.minVersion && imageAccepted r.heddleImage r.minVersion then
      { s with sluice := { s.sluice with hostLink := true } }.publish
    else { s with sluice := { s.sluice with recovery := true } }

/-- START_UP (R367). -/
def execStartUp (r : StartRecord) (s : State) : Result := .next (s.startUp r)

/-! ### Heat and scrubbing (R352, R370) -/

/-- THERMAL_SENSOR_READ (R352): issue stops above 110 °C and resumes below 100 °C. -/
def execThermalSensorRead (temps : List PlyTemperature) (s : State) : Result :=
  .next (temps.foldl (fun (s : State) t =>
    let sl := s.sluice
    let stopped := sl.stoppedPlies.contains t.ply
    if 110 < t.celsius && !stopped then
      { s with sluice := { sl with stoppedPlies := sl.stoppedPlies ++ [t.ply], thermalEvents := sl.thermalEvents + 1 } }.send (.thermalEvent t.ply)
    else if t.celsius < 100 && stopped then { s with sluice := { sl with stoppedPlies := sl.stoppedPlies.filter (· != t.ply) } }
    else s) s)

/-- Corrected errors are counted for their bank or core (R370). -/
def Sluice.countCorrected (sl : Sluice) : CorrectedErrors → Sluice
  | .bank n k => { sl with corrected := countUp n k sl.corrected }
  | .core part n k => { sl with correctedCores := countUp ⟨part, n⟩ k sl.correctedCores }

/-- TABLE_SCRUB (R370): a corrected error changes no value; it is counted. -/
def execTableScrub (corrected : List CorrectedErrors) (s : State) : Result :=
  .next { s with sluice := corrected.foldl Sluice.countCorrected s.sluice }

/-! ### Uncorrectable errors (R371 to R374) -/

/-- Quarantine a way of a bank, unless the bank has four ways left (R372). -/
def State.quarantine (s : State) (ha way : Nat) : State :=
  let sl := s.sluice
  if sl.quarantined.contains (bankOf ha, way) then s
  else if 12 ≤ sl.quarantined.countP fun q => q.1 == bankOf ha then s.send (.bankDegraded ha)
  else { s with sluice := { sl with quarantined := sl.quarantined ++ [(bankOf ha, way)] } }

/-- The other lines of the way of a bank are written back and invalidated (R372 step 4). -/
def State.clearWay (s : State) (l : L2Line) : State :=
  (s.l2.filter fun x => bankOf x.ha == bankOf l.ha && x.way == l.way && !(x.ha == l.ha && x.ctx == l.ctx)).foldl State.evictLine s

/-- DIRTY_LINE_ERROR (R372). -/
def State.dirtyLineError (s : State) (l : L2Line) : State :=
  let s := (List.range 4).foldl (fun s i => s.setMark (l.ha + 64 * i) (some .poisoned)) s
  let s := (s.failContext l.ctx).retireFrame (l.ha / 65536)
  let s := s.clearWay l
  let s := { s with l2 := s.l2.filter fun x => !(x.ha == l.ha && x.ctx == l.ctx) }
  s.quarantine l.ha l.way

/-- An L2 line with an error: a clean one is invalidated, a dirty one takes R372. -/
def State.lineError (s : State) (l : L2Line) : State := if l.dirty then s.dirtyLineError l else s.evictLine l

/-- The contexts of a partition. -/
def State.ctxsIn (s : State) (part : Nat) : List Nat :=
  (s.ctxs.filter fun c => ((s.vf? c.vf).bind (·.part)) == some part).map (·.id)

/-- The lowest-numbered healthy physical core of a sector that no logical core uses, or is about to use (R360). -/
def State.spare (s : State) (p : Partition) (ply sector : Nat) : Option Nat :=
  ((List.range 22).map fun i => (ply * 12 + sector) * 22 + i).find? fun x =>
    !(s.sluice.defects.contains (ply, sector, x % 22)) && !(p.coreTable.any fun e => e.valid && e.physical == x) &&
      !(s.sluice.pendingPlaces.any fun c => c.part == p.n && c.table == PlaceTable.core && c.entry.valid && c.entry.physical == x)

/-- A core is retired at run time and replaced from the spares of its sector, or marked absent (R360). -/
def State.retireCore (s : State) (id : CoreId) : State :=
  match s.part? id.part with
  | none => s
  | some p =>
    match p.coreTable.find? fun e => e.logical == id.n with
    | none => s
    | some e =>
      let ply := e.physical / 22 / 12
      let sector := e.physical / 22 % 12
      let s : State := { s with sluice := { s.sluice with defects := s.sluice.defects ++ [(ply, sector, e.physical % 22)] } }
      let new := s.spare p ply sector
      let entry : PlaceEntry := match new with | some x => ⟨id.n, x, true⟩ | none => ⟨id.n, e.physical, false⟩
      let s : State := { s with sluice := { s.sluice with
        pendingPlaces := s.sluice.pendingPlaces ++ [⟨id.part, .core, entry⟩]
        absent := if new.isNone then id :: s.sluice.absent else s.sluice.absent } }
      s.applyPlaces

/-- A way of a core's L1 is taken out of use, and every context of the core's partition is failed (R371). Which lines share a way is not given: all
others than the line with the error that the core's L1 holds are written back and dropped (log 59). -/
def State.coreTagError (s : State) (core : CoreId) (badLine : Nat) : State :=
  let s := s.l1WriteBackAll fun x => x.core == core && badLine != lineOf x.ha
  let sl := { s.sluice with quarantinedCores := countUp core 1 s.sluice.quarantinedCores }
  let s := { s with l1 := s.l1.filter fun x => x.core != core, sluice := sl }
  (s.ctxsIn core.part).foldl State.failContext s

/-- The structure of a partition that caches translations (R69). -/
def tlbHome (part : Nat) : TlbSite → TlbHome
  | .core n => .core ⟨part, n⟩
  | .sector n => .sector part n
  | .fetcher core => .fetcher ⟨part, core⟩
  | .engine n => .engine part n

/-- A way of a structure of R69 is counted as out of use: a core's own count, or that of the sector or engine. -/
def Sluice.quarantineTlb (sl : Sluice) : TlbHome → Sluice
  | .core c => { sl with quarantinedCores := countUp c 1 sl.quarantinedCores }
  | .fetcher c => { sl with quarantinedCores := countUp c 1 sl.quarantinedCores }
  | h => { sl with quarantinedTlbs := countUp h 1 sl.quarantinedTlbs }

/-- A way of a structure that caches translations is taken out of use, and every context of its partition is failed (R371). Which entries share a way
is not given: all that the structure holds are dropped (log 59). -/
def State.tlbTagError (s : State) (part : Nat) (h : TlbHome) : State :=
  let s := { s with tlb := s.tlb.filter fun e => e.home != h, sluice := s.sluice.quarantineTlb h }
  (s.ctxsIn part).foldl State.failContext s

/-- An uncorrectable error (R371), by where it lies. -/
def State.errorAt (s : State) : ErrorSite → State
  | .cleanL1 part core ha =>
    let line (x : L1Sector) : Bool := x.core == ⟨part, core⟩ && lineOf x.ha == lineOf ha
    if s.l1.any fun x => line x && x.dirty then s else { s with l1 := s.l1.filter fun x => !line x }
  | .cleanL2 ha => { s with l2 := s.l2.filter fun l => !(l.ha == lineOf ha && !l.dirty) }
  | .dirtyL2 ha => (s.l2.filter fun l => l.ha == lineOf ha && l.dirty).foldl State.dirtyLineError s
  | .dramSector ha =>
    let s := if s.mark (sectorOf ha) == some .poisoned then s else s.setMark (sectorOf ha) (some .failing)
    s.setFrame (ha / 65536) fun f => { f with pending := true }
  | .coreSram part core ctx repeats =>
    let s := s.failContext ctx
    if repeats then s.retireCore ⟨part, core⟩ else s
  | .tagResolvedL1 part core ha =>
    let line (x : L1Sector) : Bool := x.core == ⟨part, core⟩ && lineOf x.ha == lineOf ha
    let dirty := s.l1.filter fun x => line x && x.dirty
    dirty.foldl (fun s x => s.failContext x.ctx) { s with l1 := s.l1.filter fun x => !line x }
  | .tagResolvedL2 ha => (s.l2.filter fun l => l.ha == lineOf ha).foldl State.lineError s
  | .tagResolvedTlb part site ctx page =>
    { s with tlb := s.tlb.filter fun e => !(e.home == tlbHome part site && e.ctx == ctx && e.page == page) }
  | .tagUnresolvedL1 part core ha => s.coreTagError ⟨part, core⟩ (lineOf ha)
  | .tagUnresolvedTlb part site _ => s.tlbTagError part (tlbHome part site)
  | .tagUnresolved ha =>
    match s.l2.find? fun l => l.ha == lineOf ha with
    | none => s
    | some l =>
      let s := s.clearWay l
      let s := { s with l2 := s.l2.filter fun x => !(x.ha == l.ha && x.ctx == l.ctx) }
      let cs := ((s.bankPart ha).map fun p => s.ctxsIn p.n).getD []
      cs.foldl State.failContext (s.quarantine l.ha l.way)
  | .selfTest part core => s.retireCore ⟨part, core⟩
  | .tableLost => (s.vfs.map (·.n)).foldl (fun s v => s.resetVf v) { s with sluice := { s.sluice with recovery := true, change := none } }

/-- UNCORRECTABLE_ERROR (R371): what the functions' lists report follows (R378). -/
def State.uncorrectable (s : State) (site : ErrorSite) : State := (s.errorAt site).publish

/-- UNCORRECTABLE_ERROR (R371). -/
def execUncorrectableError (site : ErrorSite) (s : State) : Result := .next (s.uncorrectable site)

/-- FRAME_OWNER_CHANGE (R81, R355, R356, R371): only for a frame of the owning context's partition, and never of an idle slice; the frame's
lines are written back and invalidated; a frame with a pending error is retired. -/
def State.changeOwner (s : State) (frame owner : Nat) : State :=
  let ha := frame * 65536
  let home := (s.bankPart ha).map (·.n)
  let part := ((s.ctx? owner).bind fun c => s.vf? c.vf).bind (·.part)
  let wrongPart := home.isNone || ((s.ctx? owner).isSome && part != home)
  let entry := s.owners.find? fun f => f.frame == frame
  if dramBytes ≤ ha || 4096 ≤ owner || wrongPart || (entry.map (·.retired)).getD false then s.send .commandError
  else
    let s := (s.l2.filter fun l => l.ha / 65536 == frame).foldl State.evictLine s
    if (entry.map (·.pending)).getD false then (s.retireFrame frame).publish.send (.commandDone [])
    else (s.setFrame frame fun f => { f with valid := true, owner := owner }).send (.commandDone [])

/-- FRAME_OWNER_CHANGE (R81). -/
def execFrameOwnerChange (frame owner : Nat) (s : State) : Result := .next (s.changeOwner frame owner)

/-! ### Roles (R351, R353) -/

/-- A legal ply-role mask (R351). -/
def rolesLegal (m : BitVec 8) : Bool :=
  let n := (List.range 8).countP fun i => m.getLsbD i
  decide (1 ≤ n) && decide (n ≤ 5) && (List.range 6).all fun i => !(m.getLsbD i && m.getLsbD (i + 1) && m.getLsbD (i + 2))

/-- SET_ROLES (R353 steps 1 and 2). -/
def State.setRoles (s : State) (new : BitVec 8) : State :=
  let old := s.sluice.roles
  if s.sluice.change.isSome || !rolesLegal new then s.send .commandError
  else
    let leaving (p : Nat) : Bool := old.getLsbD p && !new.getLsbD p
    let s := { s with sluice := { s.sluice with change := some ⟨old, new⟩ } }
    let there (t : Team) : Bool := leaving (s.plyOf t.core) || (match t.st with | .migrating c _ _ => leaving (s.plyOf c) | _ => false)
    let cs := ((s.teams.filter fun t => t.st != .saved && there t).map (·.id.ctx)).eraseDups
    let s := cs.foldl State.preempt s
    let changed (p : Nat) : Bool := old.getLsbD p != new.getLsbD p
    (s.l2.filter fun l => changed (l.ha / 2 ^ 31 / 12) || l.far).foldl State.evictLine s

/-- SET_ROLES (R353). -/
def execSetRoles (mask : BitVec 8) (s : State) : Result := .next (s.setRoles mask)

/-! ### Partitions (R355 to R361) -/

/-- A legal partition that overlaps none of a list (R355). -/
def partLegal (ps : List Partition) (first size : Nat) : Bool :=
  [1, 2, 3, 4, 6, 12].contains size && first % size == 0 && decide (first + size ≤ 12) &&
    ps.all fun p => decide (first + size ≤ p.first) || decide (p.first + p.size ≤ first)

/-- The healthy physical cores of a sector, in ascending number. -/
def healthy (sl : Sluice) (ply sector : Nat) : List Nat := (List.range 22).filter fun i => !sl.defects.contains (ply, sector, i)

/-- The core table of a partition (R354, R360). -/
def makeCoreTable (sl : Sluice) (first size : Nat) : List PlaceEntry :=
  (List.range 8).flatMap fun ply => (List.range size).flatMap fun i => (List.range 20).map fun j =>
    match (healthy sl ply (first + i))[j]? with
    | some x => ⟨(ply * size + i) * 20 + j, (ply * 12 + first + i) * 22 + x, true⟩
    | none => ⟨(ply * size + i) * 20 + j, 0, false⟩

/-- The cluster table of a partition: five clusters in each sector. -/
def makeClusterTable (first size : Nat) : List PlaceEntry :=
  (List.range 8).flatMap fun ply => (List.range size).flatMap fun i => (List.range 5).map fun c =>
    ⟨(ply * size + i) * 5 + c, (ply * 12 + first + i) * 5 + c, true⟩

/-- Give a partition its place and its tables. -/
def Partition.build (p : Partition) (sl : Sluice) (first size : Nat) : Partition :=
  { p with first := first, size := size, coreTable := makeCoreTable sl first size, clusterTable := makeClusterTable first size,
           engineTable := { p with groups := [] }.groupTable p.groups }

/-- The logical cores of a partition's table without a physical core. -/
def Partition.missing (p : Partition) : List CoreId := (p.coreTable.filter fun e => !e.valid).map fun e => ⟨p.n, e.logical⟩

/-- Absent cores of a partition are those of its table, and those retired without a spare whose entries wait to be changed (R360). -/
def State.setAbsent (s : State) (p : Partition) : State :=
  let waits (c : CoreId) : Bool := s.sluice.pendingPlaces.any fun w => w.part == c.part && w.table == PlaceTable.core && !w.entry.valid && w.entry.logical == c.n
  { s with sluice := { s.sluice with absent := (s.sluice.absent.filter fun c => c.part != p.n || waits c) ++ p.missing } }

/-- Changes that wait to replace retired cores of plies whose entries are made anew, with the defects known, are over. -/
def State.dropReplaced (s : State) (changed : Nat → Bool) : State :=
  let sl := s.sluice
  let gone (w : PlaceWrite) : Bool :=
    w.table == PlaceTable.core && s.parts.any fun p => p.n == w.part && changed (w.entry.logical / (20 * p.size)) &&
      p.coreTable.any fun e => e.logical == w.entry.logical && sl.defects.contains (e.physical / 22 / 12, e.physical / 22 % 12, e.physical % 22)
  { s with sluice := { sl with pendingPlaces := sl.pendingPlaces.filter fun w => !gone w } }

/-- The place tables after a change of roles (R353, R359): the entries of the plies whose role changes are made anew. -/
def Partition.reEnumerate (p : Partition) (sl : Sluice) (changed : Nat → Bool) : Partition :=
  let keep (l new : List PlaceEntry) (perPly : Nat) : List PlaceEntry :=
    (l.filter fun e => !changed (e.logical / perPly)) ++ new.filter fun e => changed (e.logical / perPly)
  { p with
    coreTable := keep p.coreTable (makeCoreTable sl p.first p.size) (20 * p.size)
    clusterTable := keep p.clusterTable (makeClusterTable p.first p.size) (5 * p.size) }

/-- RE_ENUMERATE (R353 step 3): the mask is in force, cores of memory plies lose what they held, the tables are rewritten, the lists report it,
every function is told, waiting changes of place tables and resets proceed, and the saved teams of the functions whose turn it is return (R354). -/
def State.reEnumerate (s : State) : State :=
  match s.sluice.change with
  | none => s
  | some c =>
    let resets := s.sluice.pendingResets
    let s : State := { s with sluice := { s.sluice with roles := c.new, change := none, pendingResets := [] } }
    let changed (ply : Nat) : Bool := c.old.getLsbD ply != c.new.getLsbD ply
    let s := s.dropReplaced changed
    let remake (p : Partition) : Partition := p.reEnumerate s.sluice changed
    let s : State := { s with cores := s.cores.filter (fun k => c.new.getLsbD (s.plyOf k.id)), parts := s.parts.map remake }
    let s := s.parts.foldl (fun (s : State) p => s.setAbsent p) s
    let s := s.publish.topologyEvent ((s.vfs.filter fun v => v.enabled && v.part.isSome).map (·.n))
    let s := resets.foldl (fun (s : State) r => s.resetVf r.1 r.2) s.applyPlaces
    let back (s : State) (p : Partition) : State := match p.turn with | none => s | some v => s.restoreContexts (s.waiting v)
    (s.parts.foldl back s).send (.commandDone [])

/-- RE_ENUMERATE (R353). -/
def execReEnumerate (s : State) : Result := .next s.reEnumerate

/-- All functions that are enabled. -/
def State.allVfs (s : State) : List Nat := (s.vfs.filter (·.enabled)).map (·.n)

/-- A new partition with nothing granted yet. -/
def Partition.new (n : Nat) (groups : List Nat) : Partition where
  n := n
  first := 0
  size := 1
  coreTable := []
  clusterTable := []
  engineTable := []
  groups := groups
  checkpointUs := 1000
  turn := none
  turnSince := 0
  lastTurn := 0
  prevCore := none

/-- PARTITION_CREATE (R355, R357, R361): it takes the lowest free number and the lowest copy-engine group that no partition has or waits
for. -/
def State.createPartition (s : State) (first size : Nat) : State :=
  let group := (List.range 24).find? fun g => !(s.parts.any fun p => p.groups.contains g) && !(s.sluice.pendingGroups.any fun c => c.1 == g)
  match leastBelow 12 (fun n => (s.part? n).isNone), group with
  | some n, some g =>
    if !partLegal s.parts first size then s.send .commandError
    else
      let p := (Partition.new n [g]).build s.sluice first size
      ((({ s with parts := s.parts ++ [p] } : State).setAbsent p).topologyEvent s.allVfs).send (.commandDone [n])
  | _, _ => s.send .commandError

/-- PARTITION_CREATE (R357). -/
def execPartitionCreate (first size : Nat) (s : State) : Result := .next (s.createPartition first size)

/-- The interface of the function is locked or runs (R363). -/
def State.locked (s : State) (vf : Nat) : Bool := ((s.vf? vf).map fun v => v.tdisp == .locked || v.tdisp == .run).getD false

/-- A change that locked or running interfaces forbid puts them in the error state and resets their functions (R363). -/
def State.breach (s : State) (vfs : List Nat) : State :=
  (vfs.foldl (fun s vf => (s.setVf vf fun v => { v with tdisp := .error }).resetVf vf true) s).send .commandError

/-- The functions of a partition with a locked or running interface. -/
def State.lockedIn (s : State) (part : Nat) : List Nat := ((s.vfs.filter fun v => v.part == some part && s.locked v.n).map (·.n))

/-- The slices of a partition change, or it ends: changes of its place tables that wait are over, and slices that are in no partition now hold
no owned frame (R355, R356). -/
def State.vacate (s : State) (part : Nat) (ends : Bool) : State :=
  let sl := s.sluice
  let s : State := { s with sluice := { sl with
    pendingPlaces := sl.pendingPlaces.filter (fun c => c.part != part)
    pendingGroups := sl.pendingGroups.filter (fun c => !ends || c.2 != part)
    absent := sl.absent.filter (fun c => !ends || c.part != part) } }
  s.releaseFrames fun f => (s.bankPart (f.frame * 65536)).isNone

/-- PARTITION_RESIZE (R357, R363). -/
def State.resizePartition (s : State) (part first size : Nat) : State :=
  match s.part? part with
  | none => s.send .commandError
  | some p =>
    if !(s.lockedIn part).isEmpty then s.breach (s.lockedIn part)
    else if !(s.ctxsIn part).isEmpty || !partLegal (s.parts.filter fun x => x.n != part) first size then s.send .commandError
    else
      let p := p.build s.sluice first size
      ((((s.setPart part fun _ => p).setAbsent p).vacate part false).topologyEvent s.allVfs).send (.commandDone [])

/-- PARTITION_RESIZE (R357). -/
def execPartitionResize (part first size : Nat) (s : State) : Result := .next (s.resizePartition part first size)

/-- PARTITION_REMOVE (R357, R363). -/
def execPartitionRemove (part : Nat) (s : State) : Result :=
  .next (if (s.part? part).isNone then s.send .commandError
    else if !(s.lockedIn part).isEmpty then s.breach (s.lockedIn part)
    else if !(s.ctxsIn part).isEmpty then s.send .commandError
    else
      let s' : State := { s with
        parts := s.parts.filter fun p => p.n != part
        vfs := s.vfs.map fun v => if v.part == some part then { v with part := none } else v }
      ((s'.vacate part true).topologyEvent s.allVfs).send (.commandDone []))

/-- VF_PARTITION_ASSIGN (R357, R363). -/
def execVfPartitionAssign (vf part : Nat) (s : State) : Result :=
  .next (if (s.vf? vf).isNone || (s.part? part).isNone then s.send .commandError
    else if s.locked vf then s.breach [vf]
    else if !(s.ctxsOf vf).isEmpty then s.send .commandError
    else ((s.setVf vf fun v => { v with part := some part }).topologyEvent [vf]).send (.commandDone []))

/-- A place-table entry is of the partition (R356, R359): its logical number lies in the table, and a valid entry names a physical core or
cluster of the partition's slices, or an engine of its groups. -/
def Partition.placeInside (p : Partition) (table : PlaceTable) (e : PlaceEntry) : Bool :=
  let sector (n : Nat) : Bool := decide (n < 96) && decide (p.first ≤ n % 12) && decide (n % 12 < p.first + p.size)
  match table with
  | .core => decide (e.logical < 160 * p.size) && (!e.valid || sector (e.physical / 22))
  | .cluster => decide (e.logical < 40 * p.size) && (!e.valid || sector (e.physical / 5))
  | .engine => decide (e.logical < 4 * p.groups.length) && (!e.valid || p.groups.contains (e.physical / 4))

/-- PLACE_TABLE_WRITE (R359, R380): the change is made once its core or engine is free, after the teams there have migrated. -/
def execPlaceTableWrite (part : Nat) (table : PlaceTable) (logical physical : Nat) (valid : Bool) (s : State) : Result :=
  .next (match s.part? part with
    | none => s.send .commandError
    | some p =>
      if !p.placeInside table ⟨logical, physical, valid⟩ then s.send .commandError
      else
        let sl := s.sluice
        let s' : State := { s with sluice := { sl with pendingPlaces := sl.pendingPlaces ++ [⟨part, table, ⟨logical, physical, valid⟩⟩] } }
        s'.applyPlaces.send (.commandDone []))

/-- WAY_MASK_SET (R358): the function's lines in ways it loses are written back and invalidated. -/
def execWayMaskSet (vf : Nat) (mask : BitVec 16) (s : State) : Result :=
  .next (match s.vf? vf with
    | none => s.send .commandError
    | some v =>
      let lost (w : Nat) : Bool := v.wayMask.getLsbD w && !mask.getLsbD w
      let s := (s.l2.filter fun l => (s.ctxsOf vf).contains l.ctx && lost l.way).foldl State.evictLine s
      (s.setVf vf fun v => { v with wayMask := mask }).publish.send (.commandDone []))

/-- FEATURE_MASK_SET (R348, R363, R379): it takes effect at the start of the function's next turn. -/
def execFeatureMaskSet (vf : Nat) (capability : Nat) (masked : Bool) (s : State) : Result :=
  .next (match featureOfId capability with
    | none => s.send .commandError
    | some f =>
      if (s.vf? vf).isNone then s.send .commandError
      else if s.locked vf then s.breach [vf]
      else (s.setVf vf fun v => { v with pendingMask := v.pendingMask ++ [(f, masked)] }).send (.commandDone []))

/-- QUANTUM_SET (R311): 0.5 to 20 ms. -/
def execQuantumSet (vf microseconds : Nat) (s : State) : Result :=
  .next (if (s.vf? vf).isNone || microseconds < 500 || 20000 < microseconds then s.send .commandError
    else (s.setVf vf fun v => { v with quantumUs := microseconds }).publish.send (.commandDone []))

/-- CHECKPOINT_INTERVAL_SET (R333): 100 µs to 10 ms. -/
def execCheckpointIntervalSet (part microseconds : Nat) (s : State) : Result :=
  .next (if (s.part? part).isNone || microseconds < 100 || 10000 < microseconds then s.send .commandError
    else (s.setPart part fun p => { p with checkpointUs := microseconds }).publish.send (.commandDone []))

/-- Every partition keeps a group once all assignments that wait, and one more, have been made (R361). -/
def State.groupsKept (s : State) (c : Nat × Nat) : Bool :=
  s.parts.all fun p => !((s.sluice.pendingGroups ++ [c]).foldl (fun (p : Partition) c => { p with groups := p.groupsAfter c.1 c.2 }) p).groups.isEmpty

/-- COPY_ENGINE_GROUP_ASSIGN (R359, R361): every partition keeps at least one group; the assignment is made once the engines that it renumbers
have no accepted copy. -/
def execCopyEngineGroupAssign (group part : Nat) (s : State) : Result :=
  .next (
    if 24 ≤ group || (s.part? part).isNone || !s.groupsKept (group, part) then s.send .commandError
    else
      let sl := s.sluice
      ({ s with sluice := { sl with pendingGroups := sl.pendingGroups ++ [(group, part)] } } : State).applyPlaces.send (.commandDone []))

/-- QUEUE0_STATUS_ADDRESS_SET (R295). -/
def execQueue0StatusAddressSet (vf address : Nat) (s : State) : Result :=
  .next (if (s.vf? vf).isNone then s.send .commandError
    else (s.setQueue vf 0 fun q => { q with status := address }).send (.commandDone []))

/-- Counts as a list of numbers: how many there are, and each with what it belongs to. -/
def countRows {α : Type} (key : α → List Nat) (l : List (α × Nat)) : List Nat := l.length :: l.flatMap fun e => key e.1 ++ [e.2]

/-- TELEMETRY_READ (R2, R369, R370): the recovery state, thermal events, retired frames, quarantined ways, and of banks and cores their
corrected errors, failures at evictions and quarantined ways. -/
def execTelemetryRead (e : Endpoint) (s : State) : Result :=
  .next (if !e.trusted then s.send .commandError
    else
      let sl := s.sluice
      let core (c : CoreId) : List Nat := [c.part, c.n]
      let tlb (h : TlbHome) : List Nat := match h with | .engine p n => [1, p, n] | .sector p n => [0, p, n] | .core c | .fetcher c => [2, c.part, c.n]
      s.send (.commandDone ([if sl.recovery then 1 else 0, sl.thermalEvents, sl.retired.length, sl.quarantined.length] ++
        countRows (fun n => [n]) sl.corrected ++ countRows core sl.correctedCores ++ countRows (fun n => [n]) sl.evictionFailures ++
        countRows core sl.quarantinedCores ++ countRows tlb sl.quarantinedTlbs)))

/-- RETIRED_FRAME_LIST_COMMAND (R369, R374): the list is read; it is never cleared, since a retired frame never returns to service. -/
def execRetiredFrameListCommand (e : Endpoint) (c : RetiredCommand) (s : State) : Result :=
  .next (match e.trusted, c with
    | true, .read => s.send (.commandDone s.sluice.retired)
    | _, _ => s.send .commandError)

/-- ROUTE_INGRESS_TABLE_WRITE (R365). -/
def execRouteIngressTableWrite (e : LinkTableWrite) (s : State) : Result :=
  .next (match e with
    | .route device links =>
      if 64 ≤ device then s.send .commandError
      else ({ s with cutAt := s.clock, routes := (device, links.filter (· < 16)) :: s.routes.filter fun r => r.1 != device } : State).send (.commandDone [])
    | .ingress identity ctx =>
      let rest := s.ingress.filter fun x => x.1 != identity
      match ctx with
      | none => ({ s with ingress := rest } : State).send (.commandDone [])
      | some c =>
        if 2 ^ 18 ≤ identity || 4096 ≤ c || 4096 ≤ rest.length then s.send .commandError
        else ({ s with ingress := (identity, c) :: rest } : State).send (.commandDone [])
    | .device n =>
      if 64 ≤ n then s.send .commandError
      else ({ s with sluice := { s.sluice with device := n } } : State).send (.commandDone []))

end Sys2Proof.Machine
end

