-- ==== Sys2Proof/Machine/Security.lean ====
section
/-!
DEFINITION. Attestation and link protection: SPDM requests and measurement blocks (R368), IDE keys and TDISP messages (R362, R363).

The bytes of an answer that the DMTF specification defines are opaque (log 12); the order of the requests is that specification's (log 20).
-/

namespace Sys2Proof.Machine

/-- Change the SPDM state. -/
def State.setSpdm (s : State) (f : Spdm → Spdm) : State := { s with spdm := f s.spdm }

/-- An SPDM request of a trusted endpoint in the state that it needs is carried out; another is answered with an error (R368). -/
def State.spdmRequest (s : State) (e : Endpoint) (ready : Bool) (act : State → State) : State :=
  if e.trusted && ready then act s else s.send .commandError

/-- The answer to a request, which the DMTF specification defines. -/
def State.answer (s : State) (request : Nat) (about : List Nat) : State := s.send (.spdm request (Config.spdmAnswer request about))

/-- GET_VERSION (R368): a new connection begins. -/
def execGetVersion (e : Endpoint) (s : State) : Result :=
  .next (s.spdmRequest e true fun s =>
    (s.setSpdm fun x => { x with version := true, capabilities := false, algorithms := false, handshake := none }).answer 0x84 [])

/-- GET_CAPABILITIES (R368). -/
def execGetCapabilities (e : Endpoint) (s : State) : Result :=
  .next (s.spdmRequest e s.spdm.version fun s => (s.setSpdm fun x => { x with capabilities := true }).answer 0xE1 [])

/-- NEGOTIATE_ALGORITHMS (R368). -/
def execNegotiateAlgorithms (e : Endpoint) (s : State) : Result :=
  .next (s.spdmRequest e s.spdm.capabilities fun s => (s.setSpdm fun x => { x with algorithms := true }).answer 0xE3 [])

/-- GET_DIGESTS (R368). -/
def execGetDigests (e : Endpoint) (s : State) : Result := .next (s.spdmRequest e s.spdm.algorithms fun s => s.answer 0x81 [])

/-- GET_CERTIFICATE (R368): a part of the chain. -/
def execGetCertificate (e : Endpoint) (offset length : Nat) (s : State) : Result :=
  .next (s.spdmRequest e s.spdm.algorithms fun s => s.send (.certificate ((rangeFrom offset length).map Config.certificate)))

/-- CHALLENGE (R368): signed with the identity key, which the accepted configuration record brings (R2). -/
def execChallenge (e : Endpoint) (nonce : Nat) (s : State) : Result :=
  .next (s.spdmRequest e s.spdm.algorithms fun s =>
    match s.sluice.identityKey with
    | none => s.send .commandError
    | some key => s.send (.signed (Config.signature [key, 0x83, nonce])))

/-- A partition as a list of numbers. -/
def Partition.row (p : Partition) : List Nat := [p.n, p.first, p.size]

/-- A place table as a list of numbers. -/
def tableRow (l : List PlaceEntry) : List Nat := l.flatMap fun e => [e.logical, e.physical, if e.valid then 1 else 0]

/-- What measurement block `index` of a function measures (R368). -/
def State.measured (s : State) (vf : Nat) : Nat → Option (List Nat)
  | 1 => some (1 :: s.sluice.sluiceImage.map (·.toNat))
  | 2 => some (2 :: s.sluice.heddleImage.map (·.toNat))
  | 3 => some (3 :: s.sluice.configRecord.map (·.toNat))
  | 4 => some (4 :: s.sluice.roles.toNat :: s.parts.flatMap Partition.row)
  | 5 => some (5 :: (((s.vf? vf).bind (·.part)).bind s.part?).toList.flatMap fun p =>
      tableRow p.coreTable ++ tableRow p.clusterTable ++ tableRow p.engineTable)
  | 6 => some (6 :: (((s.vf? vf).map (·.masked)).getD []).map Feature.id)
  | _ => none

/-- GET_MEASUREMENTS (R368): a SHA-512 digest for each block. -/
def execGetMeasurements (e : Endpoint) (vf index : Nat) (s : State) : Result :=
  .next (s.spdmRequest e s.spdm.algorithms fun s =>
    match s.measured vf index with
    | none => s.send .commandError
    | some m => s.send (.measurement index (Config.digest m)))

/-- KEY_EXCHANGE (R368). -/
def execKeyExchange (e : Endpoint) (exchange : Nat) (mutualAuth : Bool) (s : State) : Result :=
  .next (s.spdmRequest e s.spdm.algorithms fun s => (s.setSpdm fun x => { x with handshake := some mutualAuth }).answer 0xE4 [exchange])

/-- FINISH (R368): the session is secured once the requester's proof verifies. -/
def execFinish (e : Endpoint) (verified : Bool) (s : State) : Result :=
  .next (s.spdmRequest e (s.spdm.handshake.isSome && verified) fun s =>
    (s.setSpdm fun x => { x with handshake := none, session := true, keyPhase := 0 }).answer 0xE5 [])

/-- HEARTBEAT (R368). -/
def execHeartbeat (e : Endpoint) (s : State) : Result := .next (s.spdmRequest e (s.spdm.session && e.secured) fun s => s.answer 0xE8 [])

/-- KEY_UPDATE (R368). -/
def execKeyUpdate (e : Endpoint) (s : State) : Result :=
  .next (s.spdmRequest e (s.spdm.session && e.secured) fun s => (s.setSpdm fun x => { x with keyPhase := x.keyPhase + 1 }).answer 0xE9 [])

/-- END_SESSION (R368). -/
def execEndSession (e : Endpoint) (s : State) : Result :=
  .next (s.spdmRequest e (s.spdm.session && e.secured) fun s => (s.setSpdm fun x => { x with session := false }).answer 0xEC [])

/-- A message that is accepted only inside a secured session; outside one it is answered with an error and changes nothing (R368). -/
def State.inSession (s : State) (e : Endpoint) (act : State → State) : State :=
  if e.trusted && e.secured && s.spdm.session then act s else s.send .commandError

/-- A stream by number. -/
def Spdm.stream? (x : Spdm) (n : Nat) : Option IdeStream := x.streams.find? fun k => k.n == n

/-- QUERY (R362): whether the stream has a key, and whether it runs. -/
def execQuery (e : Endpoint) (stream : Nat) (s : State) : Result :=
  .next (s.inSession e fun s =>
    s.send (.commandDone (match s.spdm.stream? stream with | none => [stream, 0, 0] | some k => [stream, 1, if k.running then 1 else 0])))

/-- KEY_PROG (R362). -/
def execKeyProg (e : Endpoint) (stream : Nat) (key : BitVec 256) (s : State) : Result :=
  .next (s.inSession e fun s =>
    (s.setSpdm fun x => { x with streams := upsert (fun k => k.n == stream) (fun k => { k with key := key }) ⟨stream, key, false⟩ x.streams }).send
      (.commandDone [stream]))

/-- Set a stream running or stop it; a stream without a key is an error. -/
def State.runStream (s : State) (e : Endpoint) (stream : Nat) (run : Bool) : State :=
  s.inSession e fun s =>
    match s.spdm.stream? stream with
    | none => s.send .commandError
    | some _ =>
      (s.setSpdm fun x => { x with streams := mapWhere (fun k => k.n == stream) (fun k => { k with running := run }) x.streams }).send
        (.commandDone [stream])

/-- K_SET_GO (R362). -/
def execKSetGo (e : Endpoint) (stream : Nat) (s : State) : Result := .next (s.runStream e stream true)

/-- K_SET_STOP (R362). -/
def execKSetStop (e : Endpoint) (stream : Nat) (s : State) : Result := .next (s.runStream e stream false)

/-- The number of an interface state. -/
def TdispState.code : TdispState → Nat
  | .unlocked => 0
  | .locked => 1
  | .run => 2
  | .error => 3

/-- The state after a message, if the message is legal in the state (log 20). -/
def TdispState.after : TdispState → TdispMessage → Option TdispState
  | .unlocked, .lockInterface => some .locked
  | .locked, .startInterface => some .run
  | _, .stopInterface => some .unlocked
  | x, .getState => some x
  | _, _ => none

/-- TDISP_MESSAGE (R362, R363, R368). -/
def execTdispMessage (e : Endpoint) (vf : Nat) (m : TdispMessage) (s : State) : Result :=
  .next (s.inSession e fun s =>
    match (s.vf? vf).bind fun v => v.tdisp.after m with
    | none => s.send .commandError
    | some t => (s.setVf vf fun v => { v with tdisp := t }).send (.commandDone [t.code]))

end Sys2Proof.Machine
end

