-- ==== Sys2Proof/Machine/Elementary.lean ====
section
/-!
DEFINITION. The correctly rounded functions of `vxf` (R59): reciprocal, reciprocal root, root, 2^x, log2, sin(2 pi x), cos(2 pi x), tanh.

The first three are exact integer computations with a sticky bit. The others compute a bracket in fixed point and widen the
precision until both ends round to the same binary32 value (log 8).
-/

namespace Sys2Proof.Machine

/-- The integer square root, by bits from 2^(k-1) down. -/
def isqrtFrom (n : Nat) : Nat → Nat → Nat
  | 0, r => r
  | k + 1, r => let c := r + 2 ^ k; isqrtFrom n k (if c * c ≤ n then c else r)

/-- The integer square root. -/
def isqrt (n : Nat) : Nat := isqrtFrom n (Nat.log2 n / 2 + 1) 0

/-- A quotient with a sticky bit below it. -/
def sticky (q : Nat) (inexact : Bool) : Nat := 2 * q + (if inexact then 1 else 0)

/-- Nearest binary32 value of a nonzero m * 2^e. -/
def nearest (neg : Bool) (m : Nat) (e : Int) : Word × Word := let r := roundF32 0 (.fin neg m e); (r.1, r.2 &&& flagOverflow)

/-- 1/x for a nonzero finite x = m * 2^e. -/
def rcpFin (neg : Bool) (m : Nat) (e : Int) : Word × Word :=
  let k := Nat.log2 m + 32
  nearest neg (sticky (2 ^ k / m) (2 ^ k % m != 0)) (-(k : Int) - e - 1)

/-- sqrt x for a positive x = m * 2^e. -/
def sqrtFin (m : Nat) (e : Int) : Word × Word :=
  let m := if e % 2 = 0 then m else 2 * m
  let e := if e % 2 = 0 then e else e - 1
  let n := m * 2 ^ 64
  let r := isqrt n
  nearest false (sticky r (r * r != n)) (e / 2 - 32 - 1)

/-- 1 / sqrt x for a positive x = m * 2^e. -/
def rsqFin (m : Nat) (e : Int) : Word × Word :=
  let m := if e % 2 = 0 then m else 2 * m
  let e := if e % 2 = 0 then e else e - 1
  let k := Nat.log2 m / 2 + 34
  let r := isqrt (2 ^ (2 * k) / m)
  nearest false (sticky r (r * r * m != 2 ^ (2 * k))) (-(k : Int) - e / 2 - 1)

/-! ### Fixed point with `p` fraction bits -/

/-- ln 2: the sum of 1 / (k 2^k), a few units of 2^-p short. -/
def ln2Fix (p : Nat) : Nat := (List.range (p + 8)).foldl (fun s k => s + 2 ^ p / ((k + 1) * 2 ^ (k + 1))) 0

/-- Terms of the series of arctan(1/n) summed with alternating signs. -/
def atanInv (p n : Nat) : Nat → Nat → Nat → Int → Int
  | 0, _, _, s => s
  | fuel + 1, k, t, s =>
    let term : Int := (t / (2 * k + 1) : Nat)
    atanInv p n fuel (k + 1) (t / (n * n)) (if k % 2 = 0 then s + term else s - term)

/-- pi / 2 by Machin's formula. -/
def halfPiFix (p : Nat) : Nat :=
  let a := atanInv p 5 (p / 2 + 4) 0 (2 ^ p / 5) 0
  let b := atanInv p 239 (p / 2 + 4) 0 (2 ^ p / 239) 0
  (8 * a - 2 * b).toNat

/-- The sum of y^k / k! for k from 1, of `fuel` terms; `t` is the term before. -/
def expSeries (p y : Nat) : Nat → Nat → Nat → Nat → Nat
  | 0, _, _, s => s
  | fuel + 1, k, t, s => let t := t * y / 2 ^ p / k; expSeries p y fuel (k + 1) t (s + t)

/-- exp y - 1 for y in fixed point. -/
def expm1Fix (p y terms : Nat) : Nat := expSeries p y terms 1 (2 ^ p) 0

/-- The sine or cosine series of y: terms of alternating sign, two powers apart. -/
def trigSeries (p y : Nat) : Nat → Nat → Nat → Bool → Int → Int
  | 0, _, _, _, s => s
  | fuel + 1, k, t, minus, s =>
    let t := t * y / 2 ^ p * y / 2 ^ p / ((k + 1) * (k + 2))
    trigSeries p y fuel (k + 2) t (!minus) (if minus then s - (t : Nat) else s + (t : Nat))

/-- sin y. -/
def sinFix (p y : Nat) : Nat := (trigSeries p y p 1 y true (y : Nat)).toNat

/-- cos y. -/
def cosFix (p y : Nat) : Nat := (trigSeries p y p 0 (2 ^ p) true ((2 ^ p : Nat) : Int)).toNat

/-- A finite value m * 2^e in fixed point, rounded down. -/
def toFix (p m : Nat) (e : Int) : Nat := if 0 ≤ e + p then m * 2 ^ (e + p).toNat else m / 2 ^ (-(e + p)).toNat

/-- Widen the precision until the bracket `v - slack`, `v + slack` (times 2^shift) rounds to one value. -/
def settleBits (approx : Nat → Int × Nat) (shift : Int) : Nat → Nat → Word × Word
  | 0, p => let v := (approx p).1; nearest (decide (v < 0)) v.natAbs (shift - p)
  | fuel + 1, p =>
    let (v, slack) := approx p
    let neg := decide (v < 0)
    if v.natAbs ≤ slack then settleBits approx shift fuel (2 * p)
    else
      let lo := nearest neg (v.natAbs - slack) (shift - p)
      let hi := nearest neg (v.natAbs + slack) (shift - p)
      if lo.1 == hi.1 then lo else settleBits approx shift fuel (2 * p)

/-- The fraction of m * 2^e below 1, as a numerator over 2^k, with the integer part. -/
def splitInt (neg : Bool) (m : Nat) (e : Int) : Int × Nat × Nat :=
  if 0 ≤ e then (atExp neg m e 0, 0, 0)
  else
    let k := (-e).toNat
    let n : Int := if neg then -(m : Int) else m
    (n.fdiv (2 ^ k : Nat), (n.fmod (2 ^ k : Nat)).toNat, k)

/-- 2^x for a finite x; beyond 128 it overflows, below -150 it rounds to zero. -/
def ex2Fin (neg : Bool) (m : Nat) (e : Int) : Word × Word :=
  if m = 0 then (0x3F800000#32, 0)
  else if leadExp m e ≥ 8 then (if neg then (0#32, 0) else (0x7F800000#32, flagOverflow))
  else
    let (n, f, k) := splitInt neg m e
    if n ≥ 128 then (0x7F800000#32, flagOverflow)
    else if n < -151 then (0#32, 0)
    else if f = 0 then nearest false 1 n
    else settleBits (fun p => (((2 ^ p + expm1Fix p (f * ln2Fix p / 2 ^ k) p : Nat) : Int), 4 * p + 64)) n 5 128

/-- The series of artanh: t^(2k+1) / (2k+1). -/
def artanhSeries (p t2 : Nat) : Nat → Nat → Nat → Nat → Nat
  | 0, _, _, s => s
  | fuel + 1, k, t, s => artanhSeries p t2 fuel (k + 1) (t * t2 / 2 ^ p) (s + t / (2 * k + 1))

/-- log2 x for a positive x that is not a power of two. -/
def lg2Fin (m : Nat) (e : Int) : Word × Word :=
  let l := Nat.log2 m
  let n : Int := e + l
  if m = 2 ^ l then (if n = 0 then (0#32, 0) else nearest (decide (n < 0)) n.natAbs 0)
  else
    settleBits (fun p =>
      let t := (m - 2 ^ l) * 2 ^ p / (m + 2 ^ l)
      let ln := 2 * artanhSeries p (t * t / 2 ^ p) p 0 t 0
      let v : Int := (ln * 2 ^ p / ln2Fix p : Nat)
      (n * (2 ^ p : Nat) + v, 16 * p + 256)) 0 5 128

/-- sin(pi u / 2) for u = f / 2^k from 0 to 1/2, not 0, with a sign. -/
def sinPart (neg : Bool) (f k : Nat) : Word × Word :=
  let extra := k - Nat.log2 f
  settleBits (fun p0 =>
    let p := p0 + 2 * extra
    let v : Int := (sinFix p (f * halfPiFix p / 2 ^ k) : Nat)
    (if neg then -v else v, 8 * p + 64)) (-(2 * extra : Nat)) 5 128

/-- cos(pi u / 2) for u = f / 2^k from 0 to 1/2, with a sign. -/
def cosPart (neg : Bool) (f k : Nat) : Word × Word :=
  if f = 0 then (if neg then 0xBF800000#32 else 0x3F800000#32, 0)
  else
    settleBits (fun p =>
      let v : Int := (cosFix p (f * halfPiFix p / 2 ^ k) : Nat)
      (if neg then -v else v, 8 * p + 64)) 0 5 128

/-- sin(pi u / 2) for u = f / 2^k from 0 to 1. -/
def sinQuarter (neg : Bool) (f k : Nat) : Word × Word :=
  if 2 * f ≤ 2 ^ k then sinPart neg f k else cosPart neg (2 ^ k - f) k

/-- cos(pi u / 2) for u = f / 2^k from 0 to 1. -/
def cosQuarter (neg : Bool) (f k : Nat) : Word × Word :=
  if 2 * f ≤ 2 ^ k then cosPart neg f k else sinPart neg (2 ^ k - f) k

/-- sin(2 pi x) or cos(2 pi x) for a finite x; an exact zero of the sine takes the sign of x, of the cosine it is +0. -/
def trigFin (cosine neg : Bool) (m : Nat) (e : Int) : Word × Word :=
  let (n, f, k) := splitInt neg m (e + 2)
  let quarter := (n % 4).toNat
  let quarter := if cosine then (quarter + 1) % 4 else quarter
  match quarter with
  | 0 => if f = 0 then (if neg && !cosine then 0x80000000#32 else 0#32, 0) else sinQuarter false f k
  | 1 => cosQuarter false f k
  | 2 => if f = 0 then (if neg && !cosine then 0x80000000#32 else 0#32, 0) else sinQuarter true f k
  | _ => cosQuarter true f k

/-- tanh of a nonzero finite x; from 16 on the nearest value is 1. -/
def tanhFin (neg : Bool) (m : Nat) (e : Int) : Word × Word :=
  if leadExp m e ≥ 4 then (if neg then 0xBF800000#32 else 0x3F800000#32, 0)
  else
    let extra := (max 0 (-(leadExp m e))).toNat
    settleBits (fun p0 =>
      let p := p0 + 2 * extra
      let terms := p + 128
      let v := expm1Fix p (toFix p m (e + 1)) terms
      let t : Int := (v * 2 ^ p / (v + 2 * 2 ^ p) : Nat)
      (if neg then -t else t, 4 * terms + 64)) (-(2 * extra : Nat)) 5 128

/-- `vxf` on one lane (R59). -/
def elementary (f : BitVec 3) (a : Word) : Word × Word :=
  let inf (neg : Bool) : Word := if neg then 0xFF800000#32 else 0x7F800000#32
  let zero (neg : Bool) : Word := if neg then 0x80000000#32 else 0#32
  match numF32 a with
  | .nan s => (nanF32, flagIf s flagInvalid)
  | .inf neg =>
    match f with
    | 0 => (zero neg, 0)
    | 1 => if neg then (nanF32, flagInvalid) else (0#32, 0)
    | 2 => if neg then (nanF32, flagInvalid) else (inf false, 0)
    | 3 => if neg then (0#32, 0) else (inf false, 0)
    | 4 => if neg then (nanF32, flagInvalid) else (inf false, 0)
    | 5 => (nanF32, flagInvalid)
    | 6 => (nanF32, flagInvalid)
    | _ => (if neg then 0xBF800000#32 else 0x3F800000#32, 0)
  | .fin neg 0 _ =>
    match f with
    | 0 => (inf neg, flagDivZero)
    | 1 => (inf neg, flagDivZero)
    | 2 => (zero neg, 0)
    | 3 => (0x3F800000#32, 0)
    | 4 => (inf true, flagDivZero)
    | 5 => (zero neg, 0)
    | 6 => (0x3F800000#32, 0)
    | _ => (zero neg, 0)
  | .fin neg m e =>
    match f with
    | 0 => rcpFin neg m e
    | 1 => if neg then (nanF32, flagInvalid) else rsqFin m e
    | 2 => if neg then (nanF32, flagInvalid) else sqrtFin m e
    | 3 => ex2Fin neg m e
    | 4 => if neg then (nanF32, flagInvalid) else lg2Fin m e
    | 5 => trigFin false neg m e
    | 6 => trigFin true neg m e
    | _ => tanhFin neg m e

end Sys2Proof.Machine
end

