-- ==== Sys2Proof/Machine/Vector.lean ====
section
/-!
DEFINITION. The meanings of the vector instructions, classes V and VI but for the cross-thread ones (R148 to R165).
-/

namespace Sys2Proof.Machine

/-- A vector result lane by lane, without flags. -/
def State.vectorResult (s : State) (d : Reg) (f : Fin 32 → Word) : State := s.finish fun w => w.lanewise d.toNat fun t => (f t, 0)

/-- A vector result lane by lane with flags. -/
def State.vectorFlags (s : State) (d : Reg) (f : Fin 32 → Word × Word) : State := s.finish fun w => w.lanewise d.toNat f

/-- Lane t of the vector register that a field names. -/
def State.lane (s : State) (a : Reg) (t : Fin 32) : Word := (s.w.readV a.toNat)[t]

/-- `vadd` (R150). -/
def execVadd (u : BitVec 1) (m : BitVec 2) (d a b : Reg) (s : State) : Result :=
  .next (s.checked (.vadd u m d a b) fun s => s.vectorFlags d fun t => addMode m (s.lane a t) (s.w.operandB u b t))

/-- `vsub` (R150). -/
def execVsub (u : BitVec 1) (m : BitVec 2) (d a b : Reg) (s : State) : Result :=
  .next (s.checked (.vsub u m d a b) fun s => s.vectorFlags d fun t => subMode m (s.lane a t) (s.w.operandB u b t))

/-- `vmul` (R150). -/
def execVmul (u : BitVec 1) (m : BitVec 2) (d a b : Reg) (s : State) : Result :=
  .next (s.checked (.vmul u m d a b) fun s => s.vectorFlags d fun t => mulMode m (s.lane a t) (s.w.operandB u b t))

/-- `vmad` and `vmad.64` (R151). -/
def execVmad (u : BitVec 1) (m : BitVec 2) (d a b : Reg) (s : State) : Result :=
  .next (s.checked (.vmad u m d a b) fun s => 
    if m = 1 then
      let r (t : Fin 32) : BitVec 64 :=
        (s.lane a t).setWidth 64 * (s.w.operandB u b t).setWidth 64 + pair64 (s.lane d t) ((s.w.readV (d.toNat + 1))[t])
      s.finish fun w =>
        (w.writeV d.toNat w.frag.mask (Vector.ofFn fun t => lo32 (r t))).writeV (d.toNat + 1) w.frag.mask (Vector.ofFn fun t => hi32 (r t))
    else s.vectorResult d fun t => (s.lane a t) * (s.w.operandB u b t) + (s.lane d t))

/-- `vand` (R152). -/
def execVand (u : BitVec 1) (d a b : Reg) (s : State) : Result :=
  .next (s.checked (.vand u d a b) fun s => s.vectorResult d fun t => (s.lane a t) &&& (s.w.operandB u b t))

/-- `vor` (R152). -/
def execVor (u : BitVec 1) (d a b : Reg) (s : State) : Result :=
  .next (s.checked (.vor u d a b) fun s => s.vectorResult d fun t => (s.lane a t) ||| (s.w.operandB u b t))

/-- `vxor` (R152). -/
def execVxor (u : BitVec 1) (d a b : Reg) (s : State) : Result :=
  .next (s.checked (.vxor u d a b) fun s => s.vectorResult d fun t => (s.lane a t) ^^^ (s.w.operandB u b t))

/-- `vshl` (R152). -/
def execVshl (u : BitVec 1) (d a b : Reg) (s : State) : Result :=
  .next (s.checked (.vshl u d a b) fun s => s.vectorResult d fun t => (s.lane a t) <<< shiftCount (s.w.operandB u b t))

/-- `vshr` (R152). -/
def execVshr (u : BitVec 1) (d a b : Reg) (s : State) : Result :=
  .next (s.checked (.vshr u d a b) fun s => s.vectorResult d fun t => (s.lane a t) >>> shiftCount (s.w.operandB u b t))

/-- `vsra` (R152). -/
def execVsra (u : BitVec 1) (d a b : Reg) (s : State) : Result :=
  .next (s.checked (.vsra u d a b) fun s => s.vectorResult d fun t => (s.lane a t).sshiftRight (shiftCount (s.w.operandB u b t)))

/-- `vmin` (R153): i32, or n32 for var 0b01. -/
def execVmin (u : BitVec 1) (m : BitVec 2) (d a b : Reg) (s : State) : Result :=
  .next (s.checked (.vmin u m d a b) fun s => s.vectorResult d fun t => minWord (m == 1#2) (s.lane a t) (s.w.operandB u b t))

/-- `vmax` (R153): i32, or n32 for var 0b01. -/
def execVmax (u : BitVec 1) (m : BitVec 2) (d a b : Reg) (s : State) : Result :=
  .next (s.checked (.vmax u m d a b) fun s => s.vectorResult d fun t => maxWord (m == 1#2) (s.lane a t) (s.w.operandB u b t))

/-- `vcmp` (R154, R119). -/
def execVcmp (u : BitVec 1) (c : BitVec 3) (p : Pred) (a b : Reg) (s : State) : Result :=
  .next (s.checked (.vcmp u c p a b) fun s => s.finish fun w => w.predicate p fun t => (condition false c (s.lane a t) (s.w.operandB u b t), 0))

/-- `vcmpn` (R154, R119): unsigned lt and ge. -/
def execVcmpn (u : BitVec 1) (c : BitVec 3) (p : Pred) (a b : Reg) (s : State) : Result :=
  .next (s.checked (.vcmpn u c p a b) fun s => s.finish fun w => w.predicate p fun t => (condition true c (s.lane a t) (s.w.operandB u b t), 0))

/-- `vsel` (R155): the active lanes whose predicate bit is set. -/
def execVsel (d a : Reg) (p : Pred) (s : State) : Result :=
  .next (s.checked (.vsel d a p) fun s => s.finish fun w => w.writeV d.toNat (w.frag.mask &&& w.readP p) (w.readV a.toNat))

/-- `vbfe` (R156): sign-extended for var 0b01. -/
def execVbfe (u : BitVec 1) (m : BitVec 2) (d a b : Reg) (s : State) : Result :=
  .next (s.checked (.vbfe u m d a b) fun s => s.vectorResult d fun t => extractField (m == 1#2) (s.lane a t) (s.w.operandB u b t))

/-- `vbfi` (R156). -/
def execVbfi (u : BitVec 1) (d a b : Reg) (s : State) : Result :=
  .next (s.checked (.vbfi u d a b) fun s => s.vectorResult d fun t => insertField (s.lane d t) (s.lane a t) (s.w.operandB u b t))

/-- `vpopc` (R157). -/
def execVpopc (d a : Reg) (s : State) : Result :=
  .next (s.checked (.vpopc d a) fun s => s.vectorResult d fun t => popCount (s.lane a t))

/-- `vclz` (R157). -/
def execVclz (d a : Reg) (s : State) : Result :=
  .next (s.checked (.vclz d a) fun s => s.vectorResult d fun t => leadingZeros (s.lane a t))

/-- `vmov` (R158). -/
def execVmov (u : BitVec 1) (d b : Reg) (s : State) : Result :=
  .next (s.checked (.vmov u d b) fun s => s.vectorResult d fun t => s.w.operandB u b t)

/-- `vfadd` (R159). -/
def execVfadd (u : BitVec 1) (r : BitVec 2) (d a b : Reg) (s : State) : Result :=
  .next (s.checked (.vfadd u r d a b) fun s => s.vectorFlags d fun t => addF32 r (s.lane a t) (s.w.operandB u b t))

/-- `vfmul` (R159). -/
def execVfmul (u : BitVec 1) (r : BitVec 2) (d a b : Reg) (s : State) : Result :=
  .next (s.checked (.vfmul u r d a b) fun s => s.vectorFlags d fun t => mulF32 r (s.lane a t) (s.w.operandB u b t))

/-- `vfsub` (R159). -/
def execVfsub (u : BitVec 1) (r : BitVec 2) (d a b : Reg) (s : State) : Result :=
  .next (s.checked (.vfsub u r d a b) fun s => s.vectorFlags d fun t => subF32 r (s.lane a t) (s.w.operandB u b t))

/-- `vfma` (R159): one rounding. -/
def execVfma (u : BitVec 1) (r : BitVec 2) (d a b : Reg) (s : State) : Result :=
  .next (s.checked (.vfma u r d a b) fun s => s.vectorFlags d fun t => fmaF32 r (s.lane a t) (s.w.operandB u b t) (s.lane d t))

/-- `vfmin` (R160). -/
def execVfmin (u : BitVec 1) (d a b : Reg) (s : State) : Result :=
  .next (s.checked (.vfmin u d a b) fun s => s.vectorFlags d fun t => minMaxF32 false (s.lane a t) (s.w.operandB u b t))

/-- `vfmax` (R160). -/
def execVfmax (u : BitVec 1) (d a b : Reg) (s : State) : Result :=
  .next (s.checked (.vfmax u d a b) fun s => s.vectorFlags d fun t => minMaxF32 true (s.lane a t) (s.w.operandB u b t))

/-- `vfcmp` (R161, R119). -/
def execVfcmp (u : BitVec 1) (c : BitVec 3) (p : Pred) (a b : Reg) (s : State) : Result :=
  .next (s.checked (.vfcmp u c p a b) fun s => s.finish fun w => w.predicate p fun t => compareF32 c (s.lane a t) (s.w.operandB u b t))

/-- `vxf` (R162, R59). -/
def execVxf (d a : Reg) (f : BitVec 3) (s : State) : Result :=
  .next (s.checked (.vxf d a f) fun s => s.vectorFlags d fun t => elementary f (s.lane a t))

/-- `vcvt` (R163, R58): source code c, destination code e, saturation request q. -/
def execVcvt (r : BitVec 2) (d a : Reg) (c e : BitVec 3) (q : BitVec 1) (s : State) : Result :=
  .next (s.checked (.vcvt r d a c e q) fun s => s.vectorFlags d fun t => convert r c.toNat e.toNat (q == 1#1) (s.lane a t))

/-- `vpk` on one lane (R164). -/
def packLane (w : BitVec 2) (old x y : Word) : Word :=
  match w with
  | 0 => ((old &&& 0xFFF#32) <<< 12) ||| ((y &&& 0x3F#32) <<< 6) ||| (x &&& 0x3F#32)
  | 1 => ((old &&& 0xFFFF#32) <<< 16) ||| ((y &&& 0xFF#32) <<< 8) ||| (x &&& 0xFF#32)
  | _ => ((y &&& 0xFFFF#32) <<< 16) ||| (x &&& 0xFFFF#32)

/-- `vupk` on one lane (R165). -/
def unpackLane (w : BitVec 2) (x y : Word) : Word :=
  match w with
  | 0 => (x >>> (6 * (y.toNat % 4))) &&& 0x3F#32
  | 1 => (x >>> (8 * (y.toNat % 4))) &&& 0xFF#32
  | _ => (x >>> (16 * (y.toNat % 2))) &&& 0xFFFF#32

/-- `vpk` (R164). -/
def execVpk (u : BitVec 1) (w : BitVec 2) (d a b : Reg) (s : State) : Result :=
  .next (s.checked (.vpk u w d a b) fun s => s.vectorResult d fun t => packLane w (s.lane d t) (s.lane a t) (s.w.operandB u b t))

/-- `vupk` (R165). -/
def execVupk (u : BitVec 1) (w : BitVec 2) (d a b : Reg) (s : State) : Result :=
  .next (s.checked (.vupk u w d a b) fun s => s.vectorResult d fun t => unpackLane w (s.lane a t) (s.w.operandB u b t))

/-- `vaddi` (R150). -/
def execVaddi (d a : Reg) (i : BitVec 10) (s : State) : Result :=
  .next (s.checked (.vaddi d a i) fun s => s.vectorResult d fun t => (s.lane a t) + i.signExtend 32)

/-- `vandi` (R152). -/
def execVandi (d a : Reg) (i : BitVec 10) (s : State) : Result :=
  .next (s.checked (.vandi d a i) fun s => s.vectorResult d fun t => (s.lane a t) &&& i.setWidth 32)

/-- `vori` (R152). -/
def execVori (d a : Reg) (i : BitVec 10) (s : State) : Result :=
  .next (s.checked (.vori d a i) fun s => s.vectorResult d fun t => (s.lane a t) ||| i.setWidth 32)

/-- `vxori` (R152). -/
def execVxori (d a : Reg) (i : BitVec 10) (s : State) : Result :=
  .next (s.checked (.vxori d a i) fun s => s.vectorResult d fun t => (s.lane a t) ^^^ i.setWidth 32)

/-- `vmuli` (R150). -/
def execVmuli (d a : Reg) (i : BitVec 10) (s : State) : Result :=
  .next (s.checked (.vmuli d a i) fun s => s.vectorResult d fun t => (s.lane a t) * i.signExtend 32)

/-- `vshli` (R152). -/
def execVshli (d a : Reg) (n : BitVec 5) (s : State) : Result :=
  .next (s.checked (.vshli d a n) fun s => s.vectorResult d fun t => (s.lane a t) <<< n.toNat)

/-- `vshri` (R152). -/
def execVshri (d a : Reg) (n : BitVec 5) (s : State) : Result :=
  .next (s.checked (.vshri d a n) fun s => s.vectorResult d fun t => (s.lane a t) >>> n.toNat)

/-- `vsrai` (R152). -/
def execVsrai (d a : Reg) (n : BitVec 5) (s : State) : Result :=
  .next (s.checked (.vsrai d a n) fun s => s.vectorResult d fun t => (s.lane a t).sshiftRight n.toNat)

/-- `vcmpi` (R154): the immediate is sign-extended first. -/
def execVcmpi (c : BitVec 3) (p : Pred) (a : Reg) (i : BitVec 10) (s : State) : Result :=
  .next (s.checked (.vcmpi c p a i) fun s => s.finish fun w => w.predicate p fun t => (condition false c (s.lane a t) (i.signExtend 32), 0))

/-- `vldi` (R158). -/
def execVldi (d : Reg) (i : BitVec 17) (s : State) : Result :=
  .next (s.checked (.vldi d i) fun s => s.vectorResult d fun _ => i.signExtend 32)

/-- `vfldi` (R158). -/
def execVfldi (d : Reg) (i : BitVec 17) (s : State) : Result :=
  .next (s.checked (.vfldi d i) fun s => s.vectorResult d fun _ => i ++ 0#15)

end Sys2Proof.Machine
end

