-- ==== Sys2Proof/Machine/Dispatch.lean ====
section
/-!
DEFINITION. One arm per constructor of `Instr`, each a direct call of its meaning.
-/

namespace Sys2Proof.Machine

def exec (i : Instr) (s : State) : Host.Outcome State Fault Refusal :=
  match i with
  | .sadd w m d a b => Sys2Proof.Machine.execSadd w m d a b s
  | .ssub w m d a b => Sys2Proof.Machine.execSsub w m d a b s
  | .smul m d a b => Sys2Proof.Machine.execSmul m d a b s
  | .sdiv u d a b => Sys2Proof.Machine.execSdiv u d a b s
  | .sand d a b => Sys2Proof.Machine.execSand d a b s
  | .sor d a b => Sys2Proof.Machine.execSor d a b s
  | .sxor d a b => Sys2Proof.Machine.execSxor d a b s
  | .sandn d a b => Sys2Proof.Machine.execSandn d a b s
  | .sshl d a b => Sys2Proof.Machine.execSshl d a b s
  | .sshr d a b => Sys2Proof.Machine.execSshr d a b s
  | .ssra d a b => Sys2Proof.Machine.execSsra d a b s
  | .smin m d a b => Sys2Proof.Machine.execSmin m d a b s
  | .smax m d a b => Sys2Proof.Machine.execSmax m d a b s
  | .scmp c d a b => Sys2Proof.Machine.execScmp c d a b s
  | .sclz d a => Sys2Proof.Machine.execSclz d a s
  | .spopc d a => Sys2Proof.Machine.execSpopc d a s
  | .srd d a => Sys2Proof.Machine.execSrd d a s
  | .swr a => Sys2Proof.Machine.execSwr a s
  | .saddi d a imm => Sys2Proof.Machine.execSaddi d a imm s
  | .sandi d a imm => Sys2Proof.Machine.execSandi d a imm s
  | .sori d a imm => Sys2Proof.Machine.execSori d a imm s
  | .sxori d a imm => Sys2Proof.Machine.execSxori d a imm s
  | .sshli d a n => Sys2Proof.Machine.execSshli d a n s
  | .sshri d a n => Sys2Proof.Machine.execSshri d a n s
  | .ssrai d a n => Sys2Proof.Machine.execSsrai d a n s
  | .smuli d a imm => Sys2Proof.Machine.execSmuli d a imm s
  | .scmpi d a c imm => Sys2Proof.Machine.execScmpi d a c imm s
  | .sldi d imm => Sys2Proof.Machine.execSldi d imm s
  | .sldhi d imm => Sys2Proof.Machine.execSldhi d imm s
  | .vadd u m d a b => Sys2Proof.Machine.execVadd u m d a b s
  | .vsub u m d a b => Sys2Proof.Machine.execVsub u m d a b s
  | .vmul u m d a b => Sys2Proof.Machine.execVmul u m d a b s
  | .vmad u m d a b => Sys2Proof.Machine.execVmad u m d a b s
  | .vand u d a b => Sys2Proof.Machine.execVand u d a b s
  | .vor u d a b => Sys2Proof.Machine.execVor u d a b s
  | .vxor u d a b => Sys2Proof.Machine.execVxor u d a b s
  | .vshl u d a b => Sys2Proof.Machine.execVshl u d a b s
  | .vshr u d a b => Sys2Proof.Machine.execVshr u d a b s
  | .vsra u d a b => Sys2Proof.Machine.execVsra u d a b s
  | .vmin u m d a b => Sys2Proof.Machine.execVmin u m d a b s
  | .vmax u m d a b => Sys2Proof.Machine.execVmax u m d a b s
  | .vcmp u c p a b => Sys2Proof.Machine.execVcmp u c p a b s
  | .vcmpn u c p a b => Sys2Proof.Machine.execVcmpn u c p a b s
  | .vsel d a p => Sys2Proof.Machine.execVsel d a p s
  | .vbfe u m d a b => Sys2Proof.Machine.execVbfe u m d a b s
  | .vbfi u d a b => Sys2Proof.Machine.execVbfi u d a b s
  | .vpopc d a => Sys2Proof.Machine.execVpopc d a s
  | .vclz d a => Sys2Proof.Machine.execVclz d a s
  | .vmov u d b => Sys2Proof.Machine.execVmov u d b s
  | .vfadd u r d a b => Sys2Proof.Machine.execVfadd u r d a b s
  | .vfmul u r d a b => Sys2Proof.Machine.execVfmul u r d a b s
  | .vfma u r d a b => Sys2Proof.Machine.execVfma u r d a b s
  | .vfsub u r d a b => Sys2Proof.Machine.execVfsub u r d a b s
  | .vfmin u d a b => Sys2Proof.Machine.execVfmin u d a b s
  | .vfmax u d a b => Sys2Proof.Machine.execVfmax u d a b s
  | .vfcmp u c p a b => Sys2Proof.Machine.execVfcmp u c p a b s
  | .vxf d a f => Sys2Proof.Machine.execVxf d a f s
  | .vcvt r d a sr t q => Sys2Proof.Machine.execVcvt r d a sr t q s
  | .vpk u w d a b => Sys2Proof.Machine.execVpk u w d a b s
  | .vupk u w d a b => Sys2Proof.Machine.execVupk u w d a b s
  | .vshfl u m d a b => Sys2Proof.Machine.execVshfl u m d a b s
  | .vaddi d a imm => Sys2Proof.Machine.execVaddi d a imm s
  | .vandi d a imm => Sys2Proof.Machine.execVandi d a imm s
  | .vori d a imm => Sys2Proof.Machine.execVori d a imm s
  | .vxori d a imm => Sys2Proof.Machine.execVxori d a imm s
  | .vshli d a n => Sys2Proof.Machine.execVshli d a n s
  | .vshri d a n => Sys2Proof.Machine.execVshri d a n s
  | .vsrai d a n => Sys2Proof.Machine.execVsrai d a n s
  | .vmuli d a imm => Sys2Proof.Machine.execVmuli d a imm s
  | .vcmpi c p a imm => Sys2Proof.Machine.execVcmpi c p a imm s
  | .vldi d imm => Sys2Proof.Machine.execVldi d imm s
  | .vfldi d imm => Sys2Proof.Machine.execVfldi d imm s
  | .vvote d p m => Sys2Proof.Machine.execVvote d p m s
  | .vred d a c => Sys2Proof.Machine.execVred d a c s
  | .vscan d a c => Sys2Proof.Machine.execVscan d a c s
  | .vhadm d a sr => Sys2Proof.Machine.execVhadm d a sr s
  | .vgetid d k => Sys2Proof.Machine.execVgetid d k s
  | .ldgB8 c k d a b => Sys2Proof.Machine.execLdgB8 c k d a b s
  | .ldgB16 c k d a b => Sys2Proof.Machine.execLdgB16 c k d a b s
  | .ldgB32 c k d a b => Sys2Proof.Machine.execLdgB32 c k d a b s
  | .ldgB64 c k d a b => Sys2Proof.Machine.execLdgB64 c k d a b s
  | .ldgB128 c k d a b => Sys2Proof.Machine.execLdgB128 c k d a b s
  | .stgB8 c k d a b => Sys2Proof.Machine.execStgB8 c k d a b s
  | .stgB16 c k d a b => Sys2Proof.Machine.execStgB16 c k d a b s
  | .stgB32 c k d a b => Sys2Proof.Machine.execStgB32 c k d a b s
  | .stgB64 c k d a b => Sys2Proof.Machine.execStgB64 c k d a b s
  | .stgB128 c k d a b => Sys2Proof.Machine.execStgB128 c k d a b s
  | .lds z k d a b => Sys2Proof.Machine.execLds z k d a b s
  | .sts z k d a b => Sys2Proof.Machine.execSts z k d a b s
  | .ldx z k d a l imm => Sys2Proof.Machine.execLdx z k d a l imm s
  | .stx z k d a l imm => Sys2Proof.Machine.execStx z k d a l imm s
  | .ldp z k d a b => Sys2Proof.Machine.execLdp z k d a b s
  | .stp z k d a b => Sys2Proof.Machine.execStp z k d a b s
  | .atomgI32 c d a b => Sys2Proof.Machine.execAtomgI32 c d a b s
  | .atomgN32 c d a b => Sys2Proof.Machine.execAtomgN32 c d a b s
  | .atomgF32 c d a b => Sys2Proof.Machine.execAtomgF32 c d a b s
  | .atomgI64 c d a b => Sys2Proof.Machine.execAtomgI64 c d a b s
  | .atomgN64 c d a b => Sys2Proof.Machine.execAtomgN64 c d a b s
  | .atomdI32 c d a b => Sys2Proof.Machine.execAtomdI32 c d a b s
  | .atomdI64 c d a b => Sys2Proof.Machine.execAtomdI64 c d a b s
  | .atomyI32 c d a b => Sys2Proof.Machine.execAtomyI32 c d a b s
  | .atomyI64 c d a b => Sys2Proof.Machine.execAtomyI64 c d a b s
  | .atomsI32 c d a b => Sys2Proof.Machine.execAtomsI32 c d a b s
  | .atomsN32 c d a b => Sys2Proof.Machine.execAtomsN32 c d a b s
  | .atomsF32 c d a b => Sys2Proof.Machine.execAtomsF32 c d a b s
  | .atomxI32 c d a l imm => Sys2Proof.Machine.execAtomxI32 c d a l imm s
  | .atomxI64 c d a l imm => Sys2Proof.Machine.execAtomxI64 c d a l imm s
  | .bra d => Sys2Proof.Machine.execBra d s
  | .brd p t j => Sys2Proof.Machine.execBrd p t j s
  | .brany p d => Sys2Proof.Machine.execBrany p d s
  | .brall p d => Sys2Proof.Machine.execBrall p d s
  | .brz sr d => Sys2Proof.Machine.execBrz sr d s
  | .brnz sr d => Sys2Proof.Machine.execBrnz sr d s
  | .jmpr sr => Sys2Proof.Machine.execJmpr sr s
  | .call d => Sys2Proof.Machine.execCall d s
  | .callr sr => Sys2Proof.Machine.execCallr sr s
  | .ret => Sys2Proof.Machine.execRet s
  | .loop sr b => Sys2Proof.Machine.execLoop sr b s
  | .lbrk => Sys2Proof.Machine.execLbrk s
  | .exit => Sys2Proof.Machine.execExit s
  | .trap c => Sys2Proof.Machine.execTrap c s
  | .nop => Sys2Proof.Machine.execNop s
  | .yield => Sys2Proof.Machine.execYield s
  | .brkpt => Sys2Proof.Machine.execBrkpt s
  | .gang x => Sys2Proof.Machine.execGang x s
  | .tclaim k x => Sys2Proof.Machine.execTclaim k x s
  | .trel k x => Sys2Proof.Machine.execTrel k x s
  | .tfetch x y => Sys2Proof.Machine.execTfetch x y s
  | .mma h g c x y z => Sys2Proof.Machine.execMma h g c x y z s
  | .mmag h g c x y z => Sys2Proof.Machine.execMmag h g c x y z s
  | .mmsp h g c x y z => Sys2Proof.Machine.execMmsp h g c x y z s
  | .accz x => Sys2Proof.Machine.execAccz x s
  | .drainmx x y z => Sys2Proof.Machine.execDrainmx x y z s
  | .drainv x y z => Sys2Proof.Machine.execDrainv x y z s
  | .tcommit => Sys2Proof.Machine.execTcommit s
  | .cpy b d x y z => Sys2Proof.Machine.execCpy b d x y z s
  | .cpyg b d x y z => Sys2Proof.Machine.execCpyg b d x y z s
  | .cpcommit => Sys2Proof.Machine.execCpcommit s
  | .pft y => Sys2Proof.Machine.execPft y s
  | .wait l sr c t => Sys2Proof.Machine.execWait l sr c t s
  | .fence k sr => Sys2Proof.Machine.execFence k sr s
  | .bari n a => Sys2Proof.Machine.execBari n a s
  | .bara n a => Sys2Proof.Machine.execBara n a s
  | .barw n a => Sys2Proof.Machine.execBarw n a s
  | .bart n a b => Sys2Proof.Machine.execBart n a b s
  | .launch d c f p => Sys2Proof.Machine.execLaunch d c f p s
  | .joinw sr => Sys2Proof.Machine.execJoinw sr s
  | .lxrd l d => Sys2Proof.Machine.execLxrd l d s
  | .enq p v n => Sys2Proof.Machine.execEnq p v n s
  | .depdec sr => Sys2Proof.Machine.execDepdec sr s
  | .winb b => Sys2Proof.Machine.execWinb b s
  | .fmt sr => Sys2Proof.Machine.execFmt sr s
  | .swpt n => Sys2Proof.Machine.execSwpt n s
  | .rfe => Sys2Proof.Machine.execRfe s
  | .mappg a p => Sys2Proof.Machine.execMappg a p s
  | .pref l a => Sys2Proof.Machine.execPref l a s
  | .sleep n => Sys2Proof.Machine.execSleep n s
  | .fragmentArrival w slot => Sys2Proof.Machine.execFragmentArrival w slot s
  | .spillEntryRead w slot => Sys2Proof.Machine.execSpillEntryRead w slot s
  | .spillRotation w wave => Sys2Proof.Machine.execSpillRotation w wave s
  | .warpExchange w => Sys2Proof.Machine.execWarpExchange w s
  | .exchangeCountExpiry w => Sys2Proof.Machine.execExchangeCountExpiry w s
  | .warpActivation w => Sys2Proof.Machine.execWarpActivation w s
  | .sleepExpiry w => Sys2Proof.Machine.execSleepExpiry w s
  | .loadDataReturn w n => Sys2Proof.Machine.execLoadDataReturn w n s
  | .storeAcknowledged w n => Sys2Proof.Machine.execStoreAcknowledged w n s
  | .scratchpadPageInComplete t page => Sys2Proof.Machine.execScratchpadPageInComplete t page s
  | .tileFetchPerform core op => Sys2Proof.Machine.execTileFetchPerform core op s
  | .matrixOperationPerform core op => Sys2Proof.Machine.execMatrixOperationPerform core op s
  | .acczPerform core op => Sys2Proof.Machine.execAcczPerform core op s
  | .drainmxPerform core op => Sys2Proof.Machine.execDrainmxPerform core op s
  | .drainvPerform core op => Sys2Proof.Machine.execDrainvPerform core op s
  | .tileBatchComplete w => Sys2Proof.Machine.execTileBatchComplete w s
  | .copyPerform copy => Sys2Proof.Machine.execCopyPerform copy s
  | .copyComplete copy => Sys2Proof.Machine.execCopyComplete copy s
  | .warpRetire w => Sys2Proof.Machine.execWarpRetire w s
  | .variantSwitch t => Sys2Proof.Machine.execVariantSwitch t s
  | .switchRendezvousTimeout t => Sys2Proof.Machine.execSwitchRendezvousTimeout t s
  | .teamPlacement part => Sys2Proof.Machine.execTeamPlacement part s
  | .registerCompactionEnd part core shuttle => Sys2Proof.Machine.execRegisterCompactionEnd part core shuttle s
  | .fatSwitchRequest part core => Sys2Proof.Machine.execFatSwitchRequest part core s
  | .leanMigration part => Sys2Proof.Machine.execLeanMigration part s
  | .migrationResume t => Sys2Proof.Machine.execMigrationResume t s
  | .nodeTimerExpiry ctx node => Sys2Proof.Machine.execNodeTimerExpiry ctx node s
  | .nodeBatchLaunch ctx node => Sys2Proof.Machine.execNodeBatchLaunch ctx node s
  | .checkpointIntervalExpiry ctx => Sys2Proof.Machine.execCheckpointIntervalExpiry ctx s
  | .checkpointEnd ctx => Sys2Proof.Machine.execCheckpointEnd ctx s
  | .turnEnd part => Sys2Proof.Machine.execTurnEnd part s
  | .turnStart part => Sys2Proof.Machine.execTurnStart part s
  | .portalWrite b => Sys2Proof.Machine.execPortalWrite b s
  | .launchPacket vf queue => Sys2Proof.Machine.execLaunchPacket vf queue s
  | .taskArm vf queue => Sys2Proof.Machine.execTaskArm vf queue s
  | .nodeDefine vf queue => Sys2Proof.Machine.execNodeDefine vf queue s
  | .recordWrite vf queue => Sys2Proof.Machine.execRecordWrite vf queue s
  | .contextSetup vf queue => Sys2Proof.Machine.execContextSetup vf queue s
  | .invalidateTranslations vf queue => Sys2Proof.Machine.execInvalidateTranslations vf queue s
  | .framePool vf queue => Sys2Proof.Machine.execFramePool vf queue s
  | .pagePool vf queue => Sys2Proof.Machine.execPagePool vf queue s
  | .killGrid vf queue => Sys2Proof.Machine.execKillGrid vf queue s
  | .taskTable vf queue => Sys2Proof.Machine.execTaskTable vf queue s
  | .keyTable vf queue => Sys2Proof.Machine.execKeyTable vf queue s
  | .queueConfigure vf queue => Sys2Proof.Machine.execQueueConfigure vf queue s
  | .unknownPacketType vf queue => Sys2Proof.Machine.execUnknownPacketType vf queue s
  | .barWriteDiscarded b => Sys2Proof.Machine.execBarWriteDiscarded b s
  | .hostRead pa size => Sys2Proof.Machine.execHostRead pa size s
  | .hostWrite pa bytes => Sys2Proof.Machine.execHostWrite pa bytes s
  | .weftIngressRequest r => Sys2Proof.Machine.execWeftIngressRequest r s
  | .weftFlitReceive link crcOk => Sys2Proof.Machine.execWeftFlitReceive link crcOk s
  | .weftRequestTimeout w => Sys2Proof.Machine.execWeftRequestTimeout w s
  | .functionLevelReset vf => Sys2Proof.Machine.execFunctionLevelReset vf s
  | .startUp r => Sys2Proof.Machine.execStartUp r s
  | .thermalSensorRead temps => Sys2Proof.Machine.execThermalSensorRead temps s
  | .tableScrub corrected => Sys2Proof.Machine.execTableScrub corrected s
  | .uncorrectableError site => Sys2Proof.Machine.execUncorrectableError site s
  | .setRoles mask => Sys2Proof.Machine.execSetRoles mask s
  | .reEnumerate => Sys2Proof.Machine.execReEnumerate s
  | .partitionCreate first size => Sys2Proof.Machine.execPartitionCreate first size s
  | .partitionResize part first size => Sys2Proof.Machine.execPartitionResize part first size s
  | .partitionRemove part => Sys2Proof.Machine.execPartitionRemove part s
  | .vfPartitionAssign vf part => Sys2Proof.Machine.execVfPartitionAssign vf part s
  | .placeTableWrite part table logical physical valid => Sys2Proof.Machine.execPlaceTableWrite part table logical physical valid s
  | .wayMaskSet vf mask => Sys2Proof.Machine.execWayMaskSet vf mask s
  | .featureMaskSet vf capability masked => Sys2Proof.Machine.execFeatureMaskSet vf capability masked s
  | .quantumSet vf microseconds => Sys2Proof.Machine.execQuantumSet vf microseconds s
  | .checkpointIntervalSet part microseconds => Sys2Proof.Machine.execCheckpointIntervalSet part microseconds s
  | .copyEngineGroupAssign group part => Sys2Proof.Machine.execCopyEngineGroupAssign group part s
  | .queue0StatusAddressSet vf address => Sys2Proof.Machine.execQueue0StatusAddressSet vf address s
  | .telemetryRead e => Sys2Proof.Machine.execTelemetryRead e s
  | .retiredFrameListCommand e c => Sys2Proof.Machine.execRetiredFrameListCommand e c s
  | .getVersion e => Sys2Proof.Machine.execGetVersion e s
  | .getCapabilities e => Sys2Proof.Machine.execGetCapabilities e s
  | .negotiateAlgorithms e => Sys2Proof.Machine.execNegotiateAlgorithms e s
  | .getDigests e => Sys2Proof.Machine.execGetDigests e s
  | .getCertificate e offset length => Sys2Proof.Machine.execGetCertificate e offset length s
  | .challenge e nonce => Sys2Proof.Machine.execChallenge e nonce s
  | .getMeasurements e vf index => Sys2Proof.Machine.execGetMeasurements e vf index s
  | .keyExchange e exchange mutualAuth => Sys2Proof.Machine.execKeyExchange e exchange mutualAuth s
  | .finish e verified => Sys2Proof.Machine.execFinish e verified s
  | .heartbeat e => Sys2Proof.Machine.execHeartbeat e s
  | .keyUpdate e => Sys2Proof.Machine.execKeyUpdate e s
  | .endSession e => Sys2Proof.Machine.execEndSession e s
  | .query e stream => Sys2Proof.Machine.execQuery e stream s
  | .keyProg e stream key => Sys2Proof.Machine.execKeyProg e stream key s
  | .kSetGo e stream => Sys2Proof.Machine.execKSetGo e stream s
  | .kSetStop e stream => Sys2Proof.Machine.execKSetStop e stream s
  | .tdispMessage e vf m => Sys2Proof.Machine.execTdispMessage e vf m s
  | .instructionFetch w slot => Sys2Proof.Machine.execInstructionFetch w slot s
  | .frameOwnerChange frame owner => Sys2Proof.Machine.execFrameOwnerChange frame owner s
  | .contextTeardown ctx => Sys2Proof.Machine.execContextTeardown ctx s
  | .virtualFunctionEnable vf => Sys2Proof.Machine.execVirtualFunctionEnable vf s
  | .routeIngressTableWrite e => Sys2Proof.Machine.execRouteIngressTableWrite e s
  | .peerRemoteAbort device peerCtx => Sys2Proof.Machine.execPeerRemoteAbort device peerCtx s
  | .msixTableWrite b => Sys2Proof.Machine.execMsixTableWrite b s

end Sys2Proof.Machine
end

