-- ==== Sys2Proof/Machine/Issue.lean ====
section
/-!
DEFINITION. How the machine moves: issuing from a slot (R13, R14, R16, R100 to R102, R132), the device's own events in the order of the
model's schedule, and the moves of the agenda (log 1).

The manual lets agents interleave in any order. The agenda names that order; once it is used up, a fixed schedule of the model goes on.
-/

namespace Sys2Proof.Machine

/-- A turn must close now (R311): its limit has come. -/
def State.turnDue (s : State) (p : Partition) : Bool := (s.turnLimit p).any fun d => decide (d ≤ s.clock)

/-- Rendezvous that have lasted 4,096 cycles and are not complete are over, and their requests are withdrawn (R252). -/
def State.lapse (s : State) : State := (s.teams.filter fun t => t.request.any s.lapsed).foldl State.lapseTeam s

/-- Time passes between steps (log 2), never beyond the moment at which a turn must close (R311). A step that follows a retirement or the
beginning of a termination comes in a later cycle, so that those of one cycle are those of one step (R266, R267; log 63). -/
def State.tick (s : State) : State :=
  let free := s.clock + max (Config.elapsed s.freeIx) (if s.spent then 1 else 0)
  { (s.passTo (match s.nextLimit with | none => free | some l => min free (max s.clock l.1))).lapse with freeIx := s.freeIx + 1 }

/-! ### The scoreboard (R132, R210, R217, R218) -/

/-- An instruction of the classes S, SI, V and VI. -/
def isCompute (i : Instr) : Bool := i.isWord && (encode i).extractLsb' 31 1 == 0#1

/-- Why the instruction of the current slot is not ready: a register waits for a load, a scalar is the token of a copy, or a compute
instruction names a leased register. -/
def State.hazard (s : State) (i : Instr) : Option Hold :=
  let reached (r n : Nat) : Bool := (vectorFields i).any fun p => decide (r < s.w.wbase + p.1 + p.2) && decide (s.w.wbase + p.1 < r + n)
  let awaited := s.w.loads.filter fun x => x.kind != .returnWords && reached x.dest (dataRegs x.size)
  if !awaited.isEmpty then some (.loadResult (awaited.any (·.missed)))
  else if (scalarFields i).any fun n => s.w.tokens.any fun t => t.1 == (s.w.scalarIx (BitVec.ofNat 7 n)).val then some .token
  else if isCompute i && s.leased i then some .lease
  else none

/-! ### Issue -/

/-- The reed word of a block (R97). -/
def CodeBlock.reed (b : CodeBlock) : Word := (b.words[0]?).getD 0

/-- The word at an address of the block. -/
def CodeBlock.word (b : CodeBlock) (pc : Addr) : Word := (b.words[pc.toNat / 4 % 8]?).getD 0

/-- The hint of the instruction at an address of the block (R98). -/
def CodeBlock.hint (b : CodeBlock) (pc : Addr) : Nat := bitsOf b.reed.toNat 31 (4 * (pc.toNat / 4 % 8) - 4) % 16

/-- The warp takes its turn with a slot. -/
def State.prepare (s : State) (id : WarpId) (slot : Fin 2) : State :=
  ({ s with eventFirst := true }.focus id).setW fun w => { w with cur := slot }

/-- The instruction in a fetched block at the program counter, or the fault of R101 and R124: reserved bits of the reed word, decoding. -/
def CodeBlock.instr (b : CodeBlock) (pc : Addr) : Option Instr :=
  if b.reed.extractLsb' 29 3 != 0#3 then none
  else match decode (b.word pc) with | .error _ => none | .ok i => some i

/-- The turn of the current slot goes to an instruction: no operation fault waits (R328), and the fragment is not at its join (R16). -/
def State.atInstr (s : State) : Bool := (s.w.opFaults.isEmpty || s.w.super) && (s.w.super || !s.w.atJoin s.w.cur)

/-! ### Accesses that no link can carry (R364)

The device's own units, such as the heddle core, a fetcher that reads records and the fault unit, wait with their accesses as the warps do: what an
instruction or an event does is held back for 10 ms while it would come out otherwise if all links were up (log 37). -/

/-- Some entry of a page table may name memory of a peer (R65): of loc 0b10, in memory or in a cached translation. -/
def State.peerMapped (s : State) : Bool :=
  (s.mem.cells.any fun c => c.1 % 8 == 1 && c.2.toNat % 4 == 2) || s.tlb.any fun e => bitsOf e.pte.toNat 9 8 == 2

/-- The machine with every link up and in every route. -/
def State.allLinked (s : State) : State :=
  { s with links := (List.range 16).map fun n => ⟨n, true, 0⟩, routes := (List.range 64).map fun d => (d, List.range 16) }

/-- What is done comes out otherwise than it would with every link up. -/
def State.meetsCut (s : State) (go : State → Result) : Bool :=
  s.peerMapped &&
    (match go s, go s.allLinked with
      | .next t, .next u => t != { u with links := t.links, routes := t.routes }
      | _, _ => false)

/-- A prefetch, which is silent (R95): it waits for no link. -/
def linkSilent : Instr → Bool
  | .pft _ | .pref _ _ => true
  | _ => false

/-- An instruction's meaning, or the wait for a link that can carry its unit's accesses. -/
def State.tryExec (s : State) (i : Instr) : Result :=
  if linkSilent i || s.linkLost s.w s.w.cur || !s.meetsCut (exec i) then exec i s else .next (s.holdFor .link)

/-- What the next instruction of a warp's slot waits for, as the state stands; `none` where it could issue, where its turn is not that of an
instruction whose block the core holds, or where the turn does more than wait: a `ret` starts its load (R181), a scratchpad access names the
pages that it waits for (R84). -/
def State.probe (s : State) (w : Warp) (slot : Fin 2) : Option Hold :=
  if w.stopped || s.teamStopped w || !(s.issueSlots w).contains slot then none
  else
    let s := (s.prepare w.id slot).setW fun w => { w with hold := w.hold.set slot none }
    match (if s.atInstr then s.codeBlock s.w s.pc else none).bind fun b => b.instr s.pc with
    | none => if s.atInstr && s.w.linkWait[slot].isSome && (s.codeBlock s.w s.pc).isNone && s.fetchWaits s.w slot then some .link else none
    | some i =>
      match s.hazard i with
      | some h => some h
      | none =>
        match s.tryExec i with
        | .next t => (t.warp? w.id).bind fun x => if x.loads == s.w.loads && x.replay == s.w.replay && x.linkWait == s.w.linkWait then x.hold[slot] else none
        | _ => none

/-- It is looked again what the waiting and the pending warps wait for (R13, R21, R22). -/
def State.wake (s : State) : State :=
  s.mapWarps (fun _ => true) fun w => { w with hold := Vector.ofFn fun k => if w.hold[k].isSome || !w.active then s.probe w k else none }

/-- After a step: engines own lines that translate only now, and what banks have accepted is performed where no engine is in the way any longer
(R286); fat requests are over where a candidate fits (R320), full undo regions force checkpoints (R334), and it is looked again what warps wait
for. -/
def State.settled (s : State) : State := s.reownAll.landAcked.dropFat.undoChecks.wake

/-- What a warp's state block holds (R334): its fragments, its split stack, its call depths, its loop levels and its flags. -/
def Warp.sameBlock (a b : Warp) : Bool :=
  a.slots == b.slots && a.split == b.split && a.spill == b.spill && a.exited == b.exited && a.depth == b.depth && a.loops == b.loops &&
    a.wbase == b.wbase && a.gang == b.gang && a.nflags == b.nflags && a.super == b.super && a.handler == b.handler

/-- The state blocks of the warps that a step from `s` to `t` has written have entries in their undo regions (R334): those that differ, and that of the
warp that has issued; not where the step took the context's checkpoint, nor of a warp in a save record. -/
def State.markBlocks (s t : State) (issuer : Option WarpId) : State :=
  let fresh (ctx : Nat) : Bool :=
    match s.ctx? ctx, t.ctx? ctx with
    | some c, some d => d.savedOut || (d.paused && !c.paused) || c.snapshot.nextCopy != d.snapshot.nextCopy
    | _, _ => true
  let wrote (w : Warp) : Bool := issuer == some w.id || (s.warp? w.id).any fun x => !x.sameBlock w
  t.mapWarps (fun w => wrote w && !fresh w.id.ctx && !t.claimSaved (some w.id.teamId)) fun w => { w with logged := { w.logged with block := true } }

/-- A block is fetched early where that meets no fault (R98, R175); nothing is marked accessed (R95). -/
def State.prefetchCode (s : State) (w : Warp) (pc : Addr) : State :=
  match s.translate (.core w.core) w.id.ctx .fetch w.super (blockOf pc) with
  | .error _ => s
  | .ok ha =>
    if (s.codeBlock w pc).isSome || s.sectorCode w.id.ctx ha 32 != 0 then s
    else (s.sectorFill w.id.ctx ha 32).keepCode w.core ⟨w.id.ctx, w.id.grid, blockOf pc, blockWords (s.mem.readBytes ha 32)⟩

/-- The block after that of the fragment that has issued is fetched ahead of need (R175). -/
def State.fetchAhead (s : State) (id : WarpId) (slot : Fin 2) : State :=
  match s.warp? id with
  | none => s
  | some w => if w.slots[slot].st == .live then s.prefetchCode w (BitVec.ofNat 64 (blockOf w.slots[slot].frag.pc + 36)) else s

/-- An `enq` or a `depdec`: those of one cycle act in ascending logical core (R315, R318). -/
def cycleOrdered : Instr → Bool
  | .enq _ _ _ | .depdec _ => true
  | _ => false

/-- The instruction cannot issue in the present cycle any more: its core has issued in it (R13), or a higher core has issued an instruction that
comes after it. -/
def State.cycleFull (s : State) (i : Instr) : Bool :=
  s.issued.any fun x => x.1 == s.w.core || (cycleOrdered i && x.2 && x.1.part == s.w.core.part && decide (s.w.core.n < x.1.n))

/-- The state in the cycle in which the instruction can issue; none where a turn must close before the next one (R311). -/
def State.inCycle (s : State) (i : Instr) : Option State :=
  if !s.cycleFull i then some s else if s.parts.any s.turnDue then none else some (s.passTo (s.clock + 1))

/-- What an issue changes beside the instruction's own effect: `s` before it, `t` after it. An instruction that did not issue leaves its
slot waiting. One that issued sets the core's scan (R13); in hinted mode the burst, tgt and yield hints act (R98, R100), and in interlocked
mode they are ignored (R128). A burst does not put the same slot first where the other one was ready already, so that a ready fragment still
issues within two of its warp's opportunities (R32, R99). -/
def State.afterIssue (s t : State) (old : Warp) (b : CodeBlock) (i : Instr) : State :=
  let id := s.w.id
  let k := s.w.cur
  if (t.warp? id).any fun w => w.hold[k].isSome then t.setWarp id fun w => { w with lastSlot := old.lastSlot, yielded := old.yielded }
  else
    let hint := if s.w.hinted then b.hint s.pc else 0
    let last := if hint.testBit 1 then (s.w.shuttle + 7) % 8 else s.w.shuttle
    let t := { s.markBlocks t (some id) with issued := (s.w.core, cycleOrdered i) :: t.issued }.setCore s.w.core fun c => { c with lastShuttle := last }
    let t := t.setWarp id fun w => { w with linkWait := w.linkWait.set k none }
    let other : Fin 2 := if k = 0 then 1 else 0
    let t := if hint.testBit 1 && !(s.readySlots old).contains other then t.setWarp id fun w => { w with lastSlot := other } else t
    let t := if hint.testBit 0 then ((codeTargets s.pc i).take 1).foldl (fun t pc => t.prefetchCode s.w pc) t else t
    let ends := s.w.hinted && b.reed.getLsbD 28 && s.pc.toNat / 4 % 8 == 7
    let t := if ends then t.setWarp id fun w => { w with yielded := w.yielded.set k true } else t
    (t.fetchAhead id k).settled

/-- The instruction in a fetched block at the program counter: R101 and R124, the scoreboard, then its meaning; with it the slot has issued
(R14) and its yield condition ends (R22). `old` is the warp before its turn. -/
def State.issueFrom (s : State) (old : Warp) (b : CodeBlock) : Result :=
  match b.instr s.pc with
  | none => .next (s.markBlocks (s.raiseCode 0x01) none).settled
  | some i =>
    match s.hazard i with
    | some h => .next (s.afterIssue (s.holdFor h) old b i)
    | none =>
      match s.inCycle i with
      | none => .next s
      | some s =>
        match (s.setW fun w => { w with lastSlot := w.cur, yielded := w.yielded.set w.cur false }).tryExec i with
        | .next t => .next (s.afterIssue t old b i)
        | r => r

/-- A slot of a warp takes its turn: a waiting operation fault is delivered (R328), the fragment arrives at its join (R16), its block is
fetched (R102), or its instruction issues. -/
def State.issueAt (s : State) (id : WarpId) (slot : Fin 2) : Result :=
  let old := ((s.warp? id).getD s.w)
  let s := s.prepare id slot
  if !s.atInstr then .next (s.markBlocks (if !s.w.opFaults.isEmpty && !s.w.super then s.deliverOpFault else s.arrive id slot) none).settled
  else if reedSlot s.pc then .fault .reedSlotPc
  else
    match s.codeBlock s.w s.pc with
    | none => .next (s.markBlocks (s.fetch id slot) none).settled
    | some b => s.issueFrom old b

/-- Among the ready active warps of a core, the one that the core's scan finds first (R13). -/
def State.scanCore (s : State) (core : CoreId) : Option Warp :=
  let last := (s.core core).lastShuttle
  let far (w : Warp) : Nat := (w.shuttle + 15 - last) % 8
  (s.warps.filter fun w => w.core == core && w.active && s.ready w).foldl
    (fun best w => match best with | none => some w | some b => if far w < far b then some w else some b) none

/-- The warp and slot that issue next in the model's schedule: cores take turns. -/
def State.nextIssue (s : State) : Option (WarpId × Fin 2) :=
  match ((s.rest ++ [s.w]).find? fun w => w.present && w.active && s.ready w).bind fun w => s.scanCore w.core with
  | none => none
  | some w => ((s.readySlots w).head?).map fun k => (w.id, k)

/-! ### The device's own events -/

/-- The event that performs a matrix operation. -/
def MatrixOp.event (o : MatrixOp) : Instr :=
  match o.work with
  | .tfetch .. => .tileFetchPerform o.core.n o.id
  | .multiply .. => .matrixOperationPerform o.core.n o.id
  | .accz .. => .acczPerform o.core.n o.id
  | .drainmx .. => .drainmxPerform o.core.n o.id
  | .drainv .. => .drainvPerform o.core.n o.id

/-- The event that consumes a packet of a type (R299). -/
def packetEvent (type vf q : Nat) : Instr :=
  match type with
  | 0x01 => .launchPacket vf q
  | 0x08 => .taskArm vf q
  | 0x09 => .nodeDefine vf q
  | 0x10 => .recordWrite vf q
  | 0x11 => .contextSetup vf q
  | 0x12 => .invalidateTranslations vf q
  | 0x13 => .framePool vf q
  | 0x14 => .pagePool vf q
  | 0x15 => .killGrid vf q
  | 0x16 => .taskTable vf q
  | 0x17 => .keyTable vf q
  | 0x18 => .queueConfigure vf q
  | _ => .unknownPacketType vf q

/-- Pages that instructions and copies wait for. -/
def State.wantedPages (s : State) : List (TeamId × Nat) :=
  (s.warps.flatMap fun w => w.hold.toList.flatMap fun h => match h with
    | some (.pageIn ps) => ps.map fun p => (w.id.teamId, p)
    | _ => []) ++
  s.copies.flatMap fun c => if c.performed then [] else (s.copyAwaits c).map fun p => (c.warp.teamId, p)

/-- Events of work under way, in the order in which the model's schedule tries them. -/
def State.workEvents (s : State) : List Instr :=
  (s.warps.flatMap fun w => [Instr.spillEntryRead w.id 0, .spillEntryRead w.id 1] ++ w.loads.map fun x => .loadDataReturn w.id x.id) ++
  (s.warps.flatMap fun w => (w.loads.filter fun x => x.kind.isAtomic && x.accepted.isNone).map fun x => .storeAcknowledged w.id x.id) ++
  (s.stores.map fun p => .storeAcknowledged p.warp p.id) ++
  (s.wantedPages.map fun p => .scratchpadPageInComplete p.1 p.2) ++
  ((s.ops.filter fun o => !o.done).map MatrixOp.event) ++
  (s.copies.map fun c => if c.performed then .copyComplete c.id else .copyPerform c.id) ++
  (s.warps.flatMap fun w => [.tileBatchComplete w.id, .warpRetire w.id])

/-- Events of the distributor and the front end. -/
def State.deviceEvents (s : State) : List Instr :=
  (s.ctxs.map fun c => .checkpointEnd c.id) ++
  (s.teams.flatMap fun t => [.variantSwitch t.id, .migrationResume t.id]) ++
  (s.cores.filterMap fun c => c.compacting.map fun k => .registerCompactionEnd c.id.part c.id.n k.1) ++
  (s.vfs.flatMap fun v => v.queues.filterMap fun q => q.buffer.head?.map fun b => packetEvent (header b).type v.n q.n) ++
  (s.ctxs.flatMap fun c => c.nodes.map fun n => .nodeBatchLaunch c.id n.n) ++
  (s.parts.flatMap fun p => [.turnStart p.n, .teamPlacement p.n])

/-- Activation and exchange of warps. -/
def State.warpEvents (s : State) : List Instr :=
  s.warps.flatMap fun w => if w.active then [.warpExchange w.id] else [.warpActivation w.id]

/-- Events that wait for a time. -/
def State.timers (s : State) : List Instr :=
  (s.warps.flatMap fun w => [Instr.sleepExpiry w.id, .spillRotation w.id 0, .spillRotation w.id 1, .exchangeCountExpiry w.id,
    .weftRequestTimeout w.id]) ++
  (s.ctxs.flatMap fun c => c.nodes.map fun n => .nodeTimerExpiry c.id n.n) ++
  (s.teams.map fun t => .switchRendezvousTimeout t.id) ++
  (s.cores.map fun c => .fatSwitchRequest c.id.part c.id.n) ++
  (s.parts.flatMap fun p => [.leanMigration p.n, .turnEnd p.n]) ++
  (s.ctxs.map fun c => .checkpointIntervalExpiry c.id)

/-- The event moves a warp on or off its shuttle and frees nothing that an instruction waits for. -/
def movesWarp : Instr → Bool
  | .warpExchange _ | .exchangeCountExpiry _ | .warpActivation _ => true
  | _ => false

/-- After an event that changed the state: stores whose lines no engine owns any longer land (R286), waiting instructions are looked at again,
and changes of place tables whose core or engines have become free take effect (R359). -/
def State.afterEvent (s : State) (e : Instr) : State :=
  let s := { s with eventFirst := false }
  if movesWarp e then s
  else
    let s := s.settled
    if s.sluice.pendingPlaces.isEmpty && s.sluice.pendingGroups.isEmpty then s else s.applyPlaces

/-- The event is about links, or waits for them by itself. -/
def linkEvent : Instr → Bool
  | .weftFlitReceive _ _ | .weftRequestTimeout _ | .routeIngressTableWrite _ | .instructionFetch _ _ | .spillEntryRead _ _ | .spillRotation _ _ => true
  | _ => false

/-- The state after an event that changes it; none for one that comes after a turn must have closed (R311), or whose own accesses wait for a link;
the beginning of such a wait is kept (R364). -/
def State.occur (s : State) (e : Instr) : Option State :=
  match exec e s with
  | .next t =>
    if t != s && (s.nextLimit.all fun l => decide (t.clock ≤ max s.clock l.1)) then
      let since := (s.unitWaits.find? fun x => x.1 == e).map (·.2)
      if linkEvent e || (since.any fun t => decide (s.linkEnd t ≤ s.clock)) || !s.meetsCut (exec e) then
        some (({ s.markBlocks t none with unitWaits := t.unitWaits.filter fun x => x.1 != e } : State).afterEvent e)
      else if since.isSome then none
      else some { s with unitWaits := (e, s.clock) :: s.unitWaits, eventFirst := false }
    else none
  | _ => none

/-- The events whose waits for a link end, each at its time (R364). -/
def State.linkEnds (s : State) : List State :=
  (s.unitWaits.filter fun x => s.nextLimit.all fun l => decide (s.linkEnd x.2 ≤ max s.clock l.1)).filterMap fun x => (s.passTo (s.linkEnd x.2)).occur x.1

/-- The first of the events that changes the state. -/
def State.firstEvent (s : State) (es : List Instr) : Option Result := (es.findSome? s.occur).map .next

/-- The one of the events that happens soonest. -/
def State.soonest (s : State) (es : List Instr) : Option Result :=
  ((s.linkEnds ++ es.filterMap s.occur).foldl (fun (best : Option State) t =>
    match best with | none => some t | some b => if t.clock < b.clock then some t else some b) none).map .next

/-! ### Moves (log 1) -/

/-- A step of the environment or of a named agent. A move whose agent cannot move leaves the state as it is. -/
def State.move (s : State) : Move → Result
  | .event i => .next (if i.isWord then s else (s.occur i).getD s)
  | .issue id slot =>
    match s.warp? id with
    | none => .next s
    | some w => if w.active && (s.readySlots w).head? == some slot then s.issueAt id slot else .next s
  | .evictL1 core ha =>
    -- a first candidate goes before all others (R74)
    let first := s.l1.filter fun x => x.core == core && x.evictFirst
    let here := s.l1.filter fun x => x.core == core && lineOf x.ha == lineOf ha
    .next (if first.isEmpty || here.any (·.evictFirst) then here.foldl (fun s x => s.l1EvictLine core x.ctx x.ha) s else s)
  | .evictL2 ha far =>
    let first := s.l2.filter fun l => bankOf l.ha == bankOf ha && l.evictFirst && !l.far
    let here := s.l2.filter fun l => l.ha == lineOf ha
    .next (if first.isEmpty || here.any fun l => l.evictFirst || l.far then here.foldl (fun s l => s.leaveBank l far) s else s)
  | .barRead vf offset size => .next (s.barRead vf offset size)
  | .dropTlb ctx page => .next { s with tlb := s.tlb.filter fun e => !(e.ctx == ctx && e.page == page) }
  | .dropCode core addr => .next (s.setCore core fun k => { k with ibuf := k.ibuf.filter fun b => b.addr != addr })
  | .farWrite ha bytes => .next (if isDram ha then s else { s with mem := s.mem.writeBytes ha bytes })
  | .farAnswer m => .next { s with far := (if m.code == 0 then [] else [m]) ++ s.far.filter fun x => x.ha != m.ha }

/-- What happens when the agenda is empty: an instruction and an event in turn, and events that wait for a time when nothing else can
happen, or in one step of 4,096. -/
def State.schedule (s : State) : Result :=
  let issue (_ : Unit) : Option Result := s.nextIssue.map fun p => s.issueAt p.1 p.2
  let event (_ : Unit) : Option Result := s.firstEvent (s.workEvents ++ s.deviceEvents ++ s.warpEvents)
  let timed (_ : Unit) : Option Result := s.soonest s.timers
  ((if s.freeIx % 4096 == 0 then timed () else none) <|> (if s.eventFirst then event () else issue ()) <|>
    (if s.eventFirst then issue () else event ()) <|> timed ()).getD (.next s)

/-- One move of the machine. -/
def State.turn (s : State) : Result :=
  match s.agenda with
  | m :: rest => { s with agenda := rest }.move m
  | [] => s.schedule

/-- A turn that must close does so first (R311); else time passes, and the machine makes its next move. -/
def State.run (s : State) : Result :=
  match s.parts.find? s.turnDue with
  | some p => .next ((s.turnEnds p.n).afterEvent (.turnEnd p.n))
  | none => s.tick.turn

/-! ### Loading a word from outside -/

/-- A context that no other context has the number of. -/
def State.newCtx (s : State) : Nat := s.ctxs.foldl (fun n c => max n (c.id + 1)) 1

/-- A core of a partition that the machine does not have. -/
def State.newCore (s : State) : CoreId := ⟨s.cores.foldl (fun n c => max n (c.id.part + 1)) (s.parts.foldl (fun n p => max n (p.n + 1)) 0), 0⟩

/-- The warp of a program loaded from outside: one fragment of 32 threads at the first slot of the block at address 0. -/
def loadedWarp (ctx : Nat) (core : CoreId) : Warp :=
  { Warp.vacant with
    id := ⟨ctx, 1, 0, 0⟩, present := true, core := core, active := true, valloc := 256
    slots := #v[⟨.live, ⟨4, 0xFFFFFFFF, 0, none, 0⟩⟩, ⟨.empty, Fragment.none⟩] }

/-- Its team. -/
def loadedTeam (ctx : Nat) (core : CoreId) : Team :=
  { id := ⟨ctx, 1, 0⟩, core := core, h := 0, variant := 0, slot := 0, warps := 1, order := 0, spadDecl := 0, spadsz := 0, privsz := 0, barriers := [],
    pages := [], slotMap := [], accMap := [], joinSet := [], request := none, st := .running, retired := [], saveHas := [], saveOk := true }

/-- Its grid. -/
def loadedGrid (ctx : Nat) : Grid :=
  { ctx := ctx, id := 1, parent := none, launcher := none, kernel := 0, header := 0, variants := [⟨4, 256, 1, 0, 0, 0, []⟩], legacy := false,
    hinted := false, frame := 0, cls := 256, level := 0, display := [], status := 1, children := 0, teamsLive := 1, teams := 1, nextTeam := 1,
    coop := false, source := .queue 0 0, prio := 0, order := 0, packet := none, task := none, firstMask := 0xFFFFFFFF, waiter := none,
    faultAddr := 0, faultSeen := false, code := 0, killed := false, recordAddr := 0 }

/-- Its context. -/
def loadedCtx (ctx : Nat) : Ctx :=
  { id := ctx, vf := 0, failed := false, pageTable := 0, recordTable := 0, backing := 0, privRegion := 0, teamSlots := 0, framePool := none,
    pagePools := [], nodes := [], keyTable := 0, taskTable := none, ready := [], prevGrid := 1, snapshot := Snapshot.empty, checkpointAt := 0,
    paused := false, undo := [], undoGone := [], savedOut := false }

/-- A program of one word, loaded from outside onto a core and a context of its own: its block stands in the core's instruction buffer,
and its warp has the next turn; a turn of a function that must close first is over. -/
def State.loaded (s : State) (word : Word) : State :=
  let ctx := s.newCtx
  let core := s.newCore
  let b : CodeBlock := ⟨ctx, 1, 0, [0, word, 0, 0, 0, 0, 0, 0]⟩
  { s with
    w := loadedWarp ctx core
    rest := if s.w.present then s.rest ++ [s.w] else s.rest
    teams := s.teams ++ [loadedTeam ctx core]
    grids := s.grids ++ [loadedGrid ctx]
    ctxs := s.ctxs ++ [loadedCtx ctx]
    cores := s.cores ++ [{ Core.fresh core with ibuf := [b] }]
    parts := s.parts.map fun p => if s.turnDue p then { p with turn := none } else p
    sluice := { s.sluice with stoppedPlies := s.sluice.stoppedPlies.filter (· != 0) }
    agenda := .issue ⟨ctx, 1, 0, 0⟩ 0 :: s.agenda }

end Sys2Proof.Machine
end

