-- ==== Sys2Proof/Machine/Step.lean ====
section
/-!
DEFINITION. One step of the machine, and how a single instruction is placed where the next step fetches.
-/

namespace Sys2Proof.Machine

/-- One step: time passes and the next move happens, or a turn that must close does so. -/
def step (s : State) : Host.Outcome State Fault Refusal := s.run

/-- The state with the instruction of `nbits` bits `w` where the next step fetches (the log says how a program comes to run): a program of
that one word is loaded from outside, and its warp has the next turn. -/
def State.withFetchWord (s : State) (nbits w : Nat) : State := s.loaded (BitVec.ofNat 32 (w % 2 ^ nbits))

end Sys2Proof.Machine
end

