-- ==== Sys2Proof/Certificates/Slice0/Obligations.lean ====
section
/-!
DEFINITION. The statements for the provers. The tables that they use stand in `Sys2Proof.Claims`, written in the rules' own arithmetic
(integers, naturals, single bits), not over the operations of the model's meanings.
-/

open Sys2Proof Sys2Proof.Machine

namespace Sys2Proof.Claims

/-! ### What an instruction leaves -/

/-- The sequential successor (R103): the next word, or the one after the reed slot. -/
def nextOf (pc : Addr) : Addr := if (pc + 4#64).toNat / 4 % 8 = 0 then pc + 8#64 else pc + 4#64

/-- No live loop level has its end word at the program counter. -/
def NoLoopEnd (w : Warp) : Prop := ∀ l : Fin 4, w.loops[l].live = true → w.loops[l].le ≠ w.frag.pc

/-- The levels of the issuing wave: all four, or the two of a legacy wave (R31, R182). -/
def waveLevels (w : Warp) : List (Fin 4) := if w.legacy then (if w.cur = 0 then [0, 1] else [2, 3]) else [0, 1, 2, 3]

/-- The threads of a level's owner that have not exited. -/
def ownerOf (w : Warp) (l : Fin 4) : Mask := w.loops[l].owner &&& ~~~w.exited

/-- Level l is the innermost of the issuing fragment, which owns it: every other live level of the wave whose owner holds the fragment's
threads was started before it (R182). -/
def OwnsInnermost (w : Warp) (l : Fin 4) : Prop :=
  l ∈ waveLevels w ∧ w.loops[l].live = true ∧ ownerOf w l = w.frag.mask ∧
    ∀ m ∈ waveLevels w, m ≠ l → w.loops[m].live = true → w.frag.mask &&& ~~~(ownerOf w m) = 0#32 → w.loops[m].order < w.loops[l].order

/-- A loop level that is free. -/
def freeLevel : LoopLevel := ⟨false, 0#64, 0#64, 0#32, 0#32, 0⟩

/-- The loop-end action of R184 at the end word of level l, the innermost that the fragment owns: back to the loop's start with the count
lowered, or, where the count runs out and no other level ends there, past the loop, whose level is free. -/
def LoopEnded (w v : Warp) (l : Fin 4) : Prop :=
  (w.loops[l].lc ≠ 1#32 → v.frag.pc = w.loops[l].ls ∧ v.loops = w.loops.set l { w.loops[l] with lc := w.loops[l].lc - 1#32 }) ∧
  (w.loops[l].lc = 1#32 → (∀ m : Fin 4, m ≠ l → w.loops[m].live = true → w.loops[m].le ≠ w.frag.pc) →
    v.frag.pc = nextOf w.frag.pc ∧ v.loops = w.loops.set l freeLevel)

/-- `v` is `w` after its issuing fragment moved on (R103, R184): the fragment keeps all but its program counter, the other slot stands;
where no loop ends the program counter is the sequential successor and the loop levels stand, and at a loop's end word its end acts. -/
def Advanced (w v : Warp) : Prop :=
  v.slots = w.slots.set w.cur { w.slots[w.cur] with frag := { w.frag with pc := v.frag.pc } } ∧
  (NoLoopEnd w → v.frag.pc = nextOf w.frag.pc ∧ v.loops = w.loops) ∧
  ∀ l, OwnsInnermost w l → w.loops[l].le = w.frag.pc → LoopEnded w v l

/-- `t` is `s` after a scalar instruction that wrote these scalars (a write to s0 is discarded), OR-ed these flags into nflags, and
changed nothing else: no memory, no other register, no other warp. Here and below `logged` is the record of which registers have an undo
entry (R334), which a write to a register adds to. -/
def ScalarResult (s t : State) (writes : List (Reg × Word)) (flags : Word) : Prop :=
  t = { s with w := { s.w with scalars := t.w.scalars, nflags := s.w.nflags ||| flags, slots := t.w.slots, loops := t.w.loops, logged := t.w.logged } } ∧
  Advanced s.w t.w ∧
  ∀ r : Reg, t.w.readS r = if r = 0#7 then 0#32 else ((writes.find? fun p => p.1 == r).map (·.2)).getD (s.w.readS r)

/-! ### Scalar arithmetic (R120, R136 to R147) -/

/-- An exact value clamped to a range, and the sat flag when it lay outside. -/
def limited (n : Nat) (lo hi x : Int) : BitVec n × Word := (BitVec.ofInt n (max lo (min hi x)), if lo ≤ x ∧ x ≤ hi then 0#32 else 0x20#32)

/-- The integer mode of R120, from the exact result of the operands read as signed and as unsigned. -/
def inMode (n : Nat) (m : BitVec 2) (signed unsigned : Int) : BitVec n × Word :=
  match m.toNat with
  | 1 => limited n (-2 ^ (n - 1)) (2 ^ (n - 1) - 1) signed
  | 2 => limited n 0 (2 ^ n - 1) unsigned
  | _ => (BitVec.ofInt n signed, 0#32)

/-- A scalar pair as R136 reads it. -/
def pairOf (w : Warp) (r : Reg) : BitVec 64 := BitVec.ofNat 64 ((w.readS (r + 1#7)).toNat * 2 ^ 32 + (w.readS r).toNat)

/-- One scalar written. -/
def one (d : Reg) (v : Word) : List (Reg × Word) := [(d, v)]

/-- A pair written, the even register low. -/
def two (d : Reg) (v : BitVec 64) : List (Reg × Word) := [(d, BitVec.ofNat 32 v.toNat), (d + 1#7, BitVec.ofNat 32 (v.toNat / 2 ^ 32))]

/-- What `sadd`, `ssub`, `smul` and `sdiv` write, and the flags they set (R120, R136 to R138). -/
def scalarArithmetic (w : Warp) : Instr → Option (List (Reg × Word) × Word)
  | .sadd u m d a b =>
    let x := w.readS a
    let y := w.readS b
    let p := pairOf w a
    let q := pairOf w b
    if u = 0#1 then let r := inMode 32 m (x.toInt + y.toInt) (x.toNat + y.toNat); some (one d r.1, r.2)
    else let r := inMode 64 m (p.toInt + q.toInt) (p.toNat + q.toNat); some (two d r.1, r.2)
  | .ssub u m d a b =>
    let x := w.readS a
    let y := w.readS b
    let p := pairOf w a
    let q := pairOf w b
    if u = 0#1 then let r := inMode 32 m (x.toInt - y.toInt) ((x.toNat : Int) - y.toNat); some (one d r.1, r.2)
    else let r := inMode 64 m (p.toInt - q.toInt) ((p.toNat : Int) - q.toNat); some (two d r.1, r.2)
  | .smul m d a b =>
    let x := w.readS a
    let y := w.readS b
    if m = 3#2 then some (one d (BitVec.ofNat 32 (x.toNat * y.toNat / 2 ^ 32)), 0#32)
    else let r := inMode 32 m (x.toInt * y.toInt) ((x.toNat : Int) * y.toNat); some (one d r.1, r.2)
  | .sdiv u d a b =>
    let x := w.readS a
    let y := w.readS b
    let q : Int := if u = 1#1 then ((x.toNat / y.toNat : Nat) : Int) else x.toInt.tdiv y.toInt
    let r : Int := if u = 1#1 then (x.toNat : Int) - q * y.toNat else x.toInt - q * y.toInt
    some (if y = 0#32 then [(d, 0xFFFFFFFF#32), (d + 1#7, x)] else [(d, BitVec.ofInt 32 q), (d + 1#7, BitVec.ofInt 32 r)], 0#32)
  | _ => none

/-- The conditions of R119 on integers; `n` is the column of `vcmpn`. -/
def holds (n : Bool) (c : BitVec 3) (x y : Word) : Bool :=
  match c.toNat with
  | 0 => decide (x = y)
  | 1 => decide (x ≠ y)
  | 2 => if n then decide (x.toNat < y.toNat) else decide (x.toInt < y.toInt)
  | 3 => if n then decide (y.toNat ≤ x.toNat) else decide (y.toInt ≤ x.toInt)
  | 4 => decide (x.toNat < y.toNat)
  | 5 => decide (y.toNat ≤ x.toNat)
  | 6 => (List.range 32).all fun i => !(x.getLsbD i && y.getLsbD i)
  | _ => (List.range 32).any fun i => x.getLsbD i && y.getLsbD i

/-- The word with these bits. -/
def wordOf (f : Nat → Bool) : Word := BitVec.ofNat 32 ((List.range 32).foldl (fun n i => if f i then n + 2 ^ i else n) 0)

/-- 1 or 0. -/
def truth (b : Bool) : Word := if b then 1#32 else 0#32

/-- Leading zero bits (R142, R157). -/
def leading (x : Word) : Word := BitVec.ofNat 32 (((List.range 32).find? fun i => x.getLsbD (31 - i)).getD 32)

/-- One bits (R142, R157). -/
def ones (x : Word) : Word := BitVec.ofNat 32 ((List.range 32).filter fun i => x.getLsbD i).length

/-- The smaller or larger, signed or unsigned (R140, R153). -/
def lesser (n : Bool) (x y : Word) : Word := if (if n then x.toNat ≤ y.toNat else x.toInt ≤ y.toInt) then x else y
def greater (n : Bool) (x y : Word) : Word := if (if n then x.toNat ≤ y.toNat else x.toInt ≤ y.toInt) then y else x

/-- What the logical, shift, compare and count instructions write (R139 to R142). -/
def scalarLogic (w : Warp) : Instr → Option (Reg × Word)
  | .sand d a b => some (d, wordOf fun i => (w.readS a).getLsbD i && (w.readS b).getLsbD i)
  | .sor d a b => some (d, wordOf fun i => (w.readS a).getLsbD i || (w.readS b).getLsbD i)
  | .sxor d a b => some (d, wordOf fun i => (w.readS a).getLsbD i != (w.readS b).getLsbD i)
  | .sandn d a b => some (d, wordOf fun i => (w.readS a).getLsbD i && !(w.readS b).getLsbD i)
  | .sshl d a b => some (d, BitVec.ofNat 32 ((w.readS a).toNat * 2 ^ ((w.readS b).toNat % 32)))
  | .sshr d a b => some (d, BitVec.ofNat 32 ((w.readS a).toNat / 2 ^ ((w.readS b).toNat % 32)))
  | .ssra d a b => some (d, BitVec.ofInt 32 ((w.readS a).toInt / 2 ^ ((w.readS b).toNat % 32)))
  | .smin m d a b => some (d, lesser (m == 1#2) (w.readS a) (w.readS b))
  | .smax m d a b => some (d, greater (m == 1#2) (w.readS a) (w.readS b))
  | .scmp c d a b => some (d, truth (holds false c (w.readS a) (w.readS b)))
  | .sclz d a => some (d, leading (w.readS a))
  | .spopc d a => some (d, ones (w.readS a))
  | _ => none

/-- What the scalar immediate instructions write (R145 to R147). -/
def scalarImmediate (w : Warp) : Instr → Option (Reg × Word)
  | .saddi d a i => some (d, BitVec.ofInt 32 ((w.readS a).toInt + i.toInt))
  | .sandi d a i => some (d, wordOf fun k => (w.readS a).getLsbD k && decide (k < 10) && i.getLsbD k)
  | .sori d a i => some (d, wordOf fun k => (w.readS a).getLsbD k || (decide (k < 10) && i.getLsbD k))
  | .sxori d a i => some (d, wordOf fun k => (w.readS a).getLsbD k != (decide (k < 10) && i.getLsbD k))
  | .smuli d a i => some (d, BitVec.ofInt 32 ((w.readS a).toInt * i.toInt))
  | .sshli d a n => some (d, BitVec.ofNat 32 ((w.readS a).toNat * 2 ^ n.toNat))
  | .sshri d a n => some (d, BitVec.ofNat 32 ((w.readS a).toNat / 2 ^ n.toNat))
  | .ssrai d a n => some (d, BitVec.ofInt 32 ((w.readS a).toInt / 2 ^ n.toNat))
  | .scmpi d a c i => some (d, truth (holds false c (w.readS a) (BitVec.ofInt 32 i.toInt)))
  | .sldi d i => some (d, BitVec.ofInt 32 i.toInt)
  | .sldhi d i => some (d, BitVec.ofNat 32 (i.toNat * 2 ^ 15 + (w.readS d).toNat % 2 ^ 15))
  | _ => none

/-- All of them: the writes and the flags. -/
def scalarResult (w : Warp) (i : Instr) : Option (List (Reg × Word) × Word) :=
  match scalarArithmetic w i, scalarLogic w i, scalarImmediate w i with
  | some r, _, _ => some r
  | _, some p, _ | _, _, some p => some (one p.1 p.2, 0#32)
  | _, _, _ => none

/-! ### Special registers (R123, R143, R144) -/

/-- Bits 31:0 of a number. -/
def low32 (n : Nat) : Word := BitVec.ofNat 32 n

/-- The special registers of R123, as a native warp of a placed team reads them. -/
def specialValue (s : State) (t : Team) (g : Grid) (n : Nat) : Word :=
  let w := s.w
  match n with
  | 0 => low32 w.id.warp
  | 1 => low32 w.id.team
  | 2 => low32 g.teams
  | 3 => low32 w.id.grid
  | 4 => low32 w.level
  | 5 => low32 g.cls
  | 6 => low32 s.clock
  | 7 => w.clockHi
  | 8 => low32 w.core.n
  | 9 => low32 w.wbase
  | 10 => low32 w.valloc
  | 11 => w.gang
  | 12 => w.frag.fmt
  | 13 => w.nflags
  | 14 => low32 t.variant
  | 15 => low32 t.warps
  | 16 => low32 t.spadsz
  | 17 => low32 w.privsz
  | 18 => w.faultInfo
  | 19 => low32 w.faultVa
  | 20 => low32 (w.faultVa / 2 ^ 32 % 2 ^ 25)
  | 21 => w.faultMask
  | 22 => low32 w.id.ctx
  | _ => 0#32

/-! ### Vector results (R130, R148 to R165) -/

/-- The active threads of the issuing fragment. -/
def on (w : Warp) (k : Fin 32) : Bool := w.frag.mask.getLsbD k.val

/-- `t` is `s` after a vector instruction that wrote, in each active lane, these values to the registers of the block that these field
values name, OR-ed the active lanes' flags into nflags, and changed nothing else. -/
def VectorResult (s t : State) (writes : List (Nat × (Fin 32 → Word))) (flags : Fin 32 → Word) : Prop :=
  t = { s with w := { s.w with vectors := t.w.vectors, nflags := t.w.nflags, slots := t.w.slots, loops := t.w.loops, logged := t.w.logged } } ∧
  Advanced s.w t.w ∧
  (∀ (r : Fin 256) (k : Fin 32), t.w.vectors[r][k] =
    match writes.find? fun p => Fin.ofNat 256 (s.w.wbase + p.1) == r with
    | some p => if on s.w k then p.2 k else s.w.vectors[r][k]
    | none => s.w.vectors[r][k]) ∧
  ∀ j : Nat, t.w.nflags.getLsbD j = (s.w.nflags.getLsbD j || (List.finRange 32).any fun k => on s.w k && (flags k).getLsbD j)

/-- `t` is `s` after a compare: the bits of the active threads of the predicate, the flags, and nothing else. -/
def PredicateResult (s t : State) (p : Pred) (bit : Fin 32 → Bool) (flags : Fin 32 → Word) : Prop :=
  t = { s with w := { s.w with preds := t.w.preds, nflags := t.w.nflags, slots := t.w.slots, loops := t.w.loops, logged := t.w.logged } } ∧
  Advanced s.w t.w ∧
  (∀ (q : Pred) (k : Fin 32), (t.w.readP q).getLsbD k.val = if q = p && on s.w k then bit k else (s.w.readP q).getLsbD k.val) ∧
  ∀ j : Nat, t.w.nflags.getLsbD j = (s.w.nflags.getLsbD j || (List.finRange 32).any fun k => on s.w k && (flags k).getLsbD j)

/-- Lane k of the vector register that a field names. -/
def lane (w : Warp) (a : Reg) (k : Fin 32) : Word := w.vectors[Fin.ofNat 256 (w.wbase + a.toNat)][k]

/-- The second operand: a scalar when u is set, else a lane. -/
def second (w : Warp) (u : BitVec 1) (b : Reg) (k : Fin 32) : Word := if u = 1#1 then w.readS b else lane w b k

/-- The integer instructions of R150, R152, R153, R157 and R158 on one lane: destination, value, flags. -/
def integerLane (w : Warp) (k : Fin 32) : Instr → Option (Reg × Word × Word)
  | .vadd u m d a b =>
    let x := lane w a k
    let y := second w u b k
    some (d, inMode 32 m (x.toInt + y.toInt) (x.toNat + y.toNat))
  | .vsub u m d a b =>
    let x := lane w a k
    let y := second w u b k
    some (d, inMode 32 m (x.toInt - y.toInt) ((x.toNat : Int) - y.toNat))
  | .vmul u m d a b =>
    let x := lane w a k
    let y := second w u b k
    some (d, if m = 3#2 then (low32 (x.toNat * y.toNat / 2 ^ 32), 0#32) else inMode 32 m (x.toInt * y.toInt) ((x.toNat : Int) * y.toNat))
  | .vand u d a b => some (d, wordOf fun i => (lane w a k).getLsbD i && (second w u b k).getLsbD i, 0#32)
  | .vor u d a b => some (d, wordOf fun i => (lane w a k).getLsbD i || (second w u b k).getLsbD i, 0#32)
  | .vxor u d a b => some (d, wordOf fun i => (lane w a k).getLsbD i != (second w u b k).getLsbD i, 0#32)
  | .vshl u d a b => some (d, low32 ((lane w a k).toNat * 2 ^ ((second w u b k).toNat % 32)), 0#32)
  | .vshr u d a b => some (d, low32 ((lane w a k).toNat / 2 ^ ((second w u b k).toNat % 32)), 0#32)
  | .vsra u d a b => some (d, BitVec.ofInt 32 ((lane w a k).toInt / 2 ^ ((second w u b k).toNat % 32)), 0#32)
  | .vmin u m d a b => some (d, lesser (m == 1#2) (lane w a k) (second w u b k), 0#32)
  | .vmax u m d a b => some (d, greater (m == 1#2) (lane w a k) (second w u b k), 0#32)
  | .vpopc d a => some (d, ones (lane w a k), 0#32)
  | .vclz d a => some (d, leading (lane w a k), 0#32)
  | .vmov u d b => some (d, second w u b k, 0#32)
  | .vaddi d a i => some (d, BitVec.ofInt 32 ((lane w a k).toInt + i.toInt), 0#32)
  | .vandi d a i => some (d, wordOf fun j => (lane w a k).getLsbD j && decide (j < 10) && i.getLsbD j, 0#32)
  | .vori d a i => some (d, wordOf fun j => (lane w a k).getLsbD j || (decide (j < 10) && i.getLsbD j), 0#32)
  | .vxori d a i => some (d, wordOf fun j => (lane w a k).getLsbD j != (decide (j < 10) && i.getLsbD j), 0#32)
  | .vmuli d a i => some (d, BitVec.ofInt 32 ((lane w a k).toInt * i.toInt), 0#32)
  | .vshli d a n => some (d, low32 ((lane w a k).toNat * 2 ^ n.toNat), 0#32)
  | .vshri d a n => some (d, low32 ((lane w a k).toNat / 2 ^ n.toNat), 0#32)
  | .vsrai d a n => some (d, BitVec.ofInt 32 ((lane w a k).toInt / 2 ^ n.toNat), 0#32)
  | .vldi d i => some (d, BitVec.ofInt 32 i.toInt, 0#32)
  | .vfldi d i => some (d, low32 (i.toNat * 2 ^ 15), 0#32)
  | _ => none

/-- The field of a descriptor (R156): its position and its number of bits. -/
def fieldBits (y : Word) : Nat × Nat :=
  let pos := y.toNat % 2 ^ 5
  let e := min (pos + y.toNat / 2 ^ 8 % 2 ^ 5) 32
  (pos, e - pos)

/-- The field, select and pack instructions of R155, R156, R164 and R165 on one lane: destination and value. -/
def fieldLane (w : Warp) (k : Fin 32) : Instr → Option (Reg × Word)
  | .vsel d a p => some (d, if (w.readP p).getLsbD k.val then lane w a k else lane w d k)
  | .vbfe u m d a b =>
    let f := fieldBits (second w u b k)
    let bit (i : Nat) : Bool := (lane w a k).getLsbD (f.1 + i)
    some (d, wordOf fun i => if i < f.2 then bit i else decide (m = 1#2) && decide (0 < f.2) && bit (f.2 - 1))
  | .vbfi u d a b =>
    let f := fieldBits (second w u b k)
    some (d, wordOf fun i => if f.1 ≤ i ∧ i < f.1 + f.2 then (lane w a k).getLsbD (i - f.1) else (lane w d k).getLsbD i)
  | .vpk u m d a b =>
    let x := (lane w a k).toNat
    let y := (second w u b k).toNat
    let z := (lane w d k).toNat
    some (d, low32 (match m.toNat with
      | 0 => z % 2 ^ 12 * 2 ^ 12 + y % 2 ^ 6 * 2 ^ 6 + x % 2 ^ 6
      | 1 => z % 2 ^ 16 * 2 ^ 16 + y % 2 ^ 8 * 2 ^ 8 + x % 2 ^ 8
      | _ => y % 2 ^ 16 * 2 ^ 16 + x % 2 ^ 16))
  | .vupk u m d a b =>
    let x := (lane w a k).toNat
    let y := (second w u b k).toNat
    some (d, low32 (match m.toNat with
      | 0 => x / 2 ^ (6 * (y % 4)) % 2 ^ 6
      | 1 => x / 2 ^ (8 * (y % 4)) % 2 ^ 8
      | _ => x / 2 ^ (16 * (y % 2)) % 2 ^ 16))
  | _ => none

/-- Both tables: destination, value, flags. -/
def vectorLane (w : Warp) (k : Fin 32) (i : Instr) : Option (Reg × Word × Word) :=
  match integerLane w k i, fieldLane w k i with
  | some r, _ => some r
  | _, some p => some (p.1, p.2, 0#32)
  | _, _ => none

/-- The integer compares of R154 on one lane: predicate, result, flags. -/
def compareLane (w : Warp) (k : Fin 32) : Instr → Option (Pred × Bool × Word)
  | .vcmp u c p a b => some (p, holds false c (lane w a k) (second w u b k), 0#32)
  | .vcmpn u c p a b => some (p, holds true c (lane w a k) (second w u b k), 0#32)
  | .vcmpi c p a i => some (p, holds false c (lane w a k) (BitVec.ofInt 32 i.toInt), 0#32)
  | _ => none

end Sys2Proof.Claims

open Sys2Proof.Claims

/-- R120, R136 to R142, R145 to R147: what every scalar arithmetic, logical, shift, compare, count and immediate instruction writes for all operands,
the sat flag of a clamped `sadd`, `ssub` or `smul`, and that nothing else changes. -/
def Obligations.ScalarResults : Prop :=
  ∀ (i : Instr) (s : State) (r : List (Reg × Word) × Word), scalarResult s.w i = some r → s.precheck i = none →
    ∃ t, exec i s = .next t ∧ ScalarResult s t r.1 r.2

/-- R123, R143, R144: what `srd` reads for every special register in either mode that may read it, that a read of clocklo latches bits
63:32 of the counter, and that `swr` writes bits 6:0 to nflags; nothing else changes. -/
def Obligations.SpecialRegisters : Prop :=
  ∀ (s : State) (t : Team) (g : Grid) (d a : Reg), s.team = some t → s.grid = some g → s.w.legacy = false →
    (s.precheck (.srd d a) = none → ∃ u, exec (.srd d a) s = .next u ∧
      ScalarResult { s with w := { s.w with clockHi := if a = 6#7 then low32 (s.clock / 2 ^ 32) else s.w.clockHi } } u
        (one d (specialValue s t g a.toNat)) 0#32) ∧
    (s.precheck (.swr a) = none → ∃ u, exec (.swr a) s = .next u ∧
      ScalarResult { s with w := { s.w with nflags := low32 ((s.w.readS a).toNat % 2 ^ 7) } } u [] 0#32)

/-- R120, R150 to R153, R155 to R158, R164, R165: the integer, select, bit-field and packing instructions write every active lane, keep every other
lane and register, and set only the sat flag of a clamped active lane; `vmad` writes the low 32 bits of v[a] × B + v[d], and `vmad.64` adds
the full product to the pair vd+1:vd. -/
def Obligations.VectorResults : Prop :=
  ∀ (s : State),
    (∀ (i : Instr) (d : Reg) (v : Fin 32 → Word × Word), (∀ k, vectorLane s.w k i = some (d, v k)) → s.precheck i = none →
      ∃ t, exec i s = .next t ∧ VectorResult s t [(d.toNat, fun k => (v k).1)] fun k => (v k).2) ∧
    ∀ (u : BitVec 1) (m : BitVec 2) (d a b : Reg), s.precheck (.vmad u m d a b) = none →
      let x (k : Fin 32) : Nat := (lane s.w a k).toNat
      let y (k : Fin 32) : Nat := (second s.w u b k).toNat
      let z (k : Fin 32) : Nat := (s.w.vectors[Fin.ofNat 256 (s.w.wbase + d.toNat + 1)][k]).toNat * 2 ^ 32 + (lane s.w d k).toNat
      ∃ t, exec (.vmad u m d a b) s = .next t ∧
        VectorResult s t
          (if m = 1#2 then [(d.toNat, fun k => low32 (x k * y k + z k)), (d.toNat + 1, fun k => low32 ((x k * y k + z k) / 2 ^ 32))]
           else [(d.toNat, fun k => low32 (x k * y k + (lane s.w d k).toNat))]) fun _ => 0#32

/-! ### Encoding and decoding (R107 to R117, R124) -/

/-- Every instruction word, with every operand at every value of its field, is decoded to the instruction that was encoded; and no two words
decode to one instruction: a decoded word is the encoding of what it decodes to. -/
def Obligations.DecodeInvertsEncode : Prop :=
  (∀ i : Instr, i.isWord = true → decode (encode i) = .ok i) ∧ ∀ (w : Word) (i : Instr), decode w = .ok i → encode i = w ∧ i.isWord = true

/-- Words that the spec's worked programs print, decoded to the instructions beside which they stand. -/
def Obligations.WordsOfTheSpec : Prop :=
  decode 0x00018205#32 = .ok (.sadd 0 0 6 4 5) ∧ decode 0x200A03F9#32 = .ok (.saddi 5 0 0x3F9) ∧
  decode 0x03810307#32 = .ok (.sdiv 1 4 6 7) ∧ decode 0x40808084#32 = .ok (.vadd 1 0 2 1 4) ∧
  decode 0x68420010#32 = .ok (.vcmpi 2 1 0 16) ∧ decode 0x8202030C#32 = .ok (.ldgB32 0 0 8 6 12) ∧
  decode 0xA42E000A#32 = .ok (.brz 23 10) ∧ decode 0xA6000100#32 = .ok (.jmpr 2) ∧
  decode 0xC4258A15#32 = .ok (.mma 0 0 1 22 20 21) ∧ decode 0xE0FFFF00#32 = .ok (.wait 63 63 15 0) ∧
  decode 0xE6041028#32 = .ok (.launch 2 4 5 0) ∧ decode 0xF1000064#32 = .ok (.sleep 100)

/-! ### Faults before an instruction executes (R125, R126, R127, R329) -/

namespace Sys2Proof.Claims

/-- The operation number: bits 31:24 of the word. -/
def opcode (i : Instr) : Nat := (encode i).toNat / 2 ^ 24

/-- The classes and instructions that R329 names. -/
def supervisorWord (i : Instr) : Bool :=
  decide (opcode i < 0xA0) ||
    [0xA0, 0xA2, 0xA3, 0xA4, 0xA5, 0xA6, 0xAD, 0xAE, 0xB0, 0xE0, 0xE1, 0xE8, 0xEE, 0xEF, 0xF1].contains (opcode i)

/-- The features of R126 by operation number. -/
def featureWord (i : Instr) : Option Feature :=
  match opcode i with
  | 0xC0 | 0xC1 | 0xC2 | 0xC3 | 0xC4 | 0xC7 | 0xC8 | 0xC9 | 0xCA | 0xCE => some .matrix
  | 0xC5 => some .adapterGather
  | 0xC6 => some .structuredSparsity
  | 0xE6 | 0xE7 => some .nestedLaunch
  | 0xE9 => some .workGraph
  | 0xEA => some .countedTasks
  | 0x95 | 0x96 | 0x97 | 0x98 => some .domainAtomics
  | 0xED => some .variantSwitching
  | _ => none

/-- `rfe`, `mappg`, and `srd` of the numbers 18 to 22 (R125). -/
def privilegedWord (i : Instr) : Bool :=
  opcode i == 0xEE || opcode i == 0xEF || (opcode i == 0x10 && decide (18 ≤ (encode i).toNat / 2 ^ 7 % 2 ^ 7))

/-- The word has an ill-formed operand: a reserved code, an odd first register of a pair, a group beyond s127, or an empty loop body (R117, R124,
and the tables R173, R190, R211 and R256; for the copies R233 and R237). Read off the fields of the encodings. -/
def illFormedWord (n : Nat) : Bool :=
  let field (lo bits : Nat) : Nat := n / 2 ^ lo % 2 ^ bits
  let odd (lo : Nat) : Bool := decide (field lo 1 = 1)
  let beyond (lo k : Nat) : Bool := decide (128 < field lo 7 + k)
  let token : Bool := decide (field 23 1 = 1) && (decide (field 14 7 = 0) || beyond 14 2)
  match n / 2 ^ 24 with
  | 0x00 | 0x01 => decide (field 21 2 = 3) || decide (field 23 1 = 1) && (odd 14 || odd 7 || odd 0)
  | 0x03 => odd 14
  | 0x0B | 0x0C | 0x43 | 0x4A | 0x4B | 0x4F => decide (2 ≤ field 21 2)
  | 0x10 => decide (22 < field 7 7)
  | 0x40 | 0x41 | 0x5C | 0x5D => decide (field 21 2 = 3)
  | 0x6B => decide (field 0 2 = 3)
  | 0x6C | 0x6D => decide (10 < field 0 4)
  | 0x6F => decide (2 < field 0 10)
  | 0x80 | 0x81 | 0x82 | 0x83 | 0x84 | 0x85 | 0x86 | 0x87 | 0x88 | 0x89 | 0x8A | 0x8B | 0x8C | 0x8D | 0x8E | 0x8F => decide (field 22 2 = 3)
  | 0x92 | 0x9B => !([0, 1, 2, 6].contains (field 21 3))
  | 0xA6 | 0xA8 => odd 7
  | 0xAA => decide (field 0 12 = 0)
  | 0xC3 | 0xCE => beyond 7 3
  | 0xC4 | 0xC5 => decide (field 23 1 = 1) && beyond 7 3 || decide (field 22 1 = 1) && beyond 0 3
  | 0xC6 => decide (field 23 1 = 1) && beyond 7 3 || beyond 0 6
  | 0xC8 => beyond 7 3 || beyond 0 3
  | 0xCB => token || (match field 21 2 with | 0 => beyond 7 3 | 1 => beyond 0 3 | 2 => beyond 7 3 || beyond 0 3 | _ => beyond 7 2)
  | 0xCC => token || decide (2 ≤ field 21 2) || beyond 0 2
  | 0xE1 => decide (field 22 2 = 0)
  | 0xE6 | 0xEF => odd 17
  | 0xE8 => odd 13
  | 0xF0 => decide (2 ≤ field 22 2)
  | _ => false

/-- The ranks 3 to 7 of R127 in order: whether the fault applies, and its code. -/
def ranks (s : State) (i : Instr) : List (Bool × Code) :=
  [(illFormedWord (encode i).toNat || (s.w.super && !supervisorWord i), 0x01#8),
   (((featureWord i).map s.masked).getD false || (s.w.legacy && [0xC0, 0xC4, 0xC5, 0xC6].contains (opcode i)), 0x02#8),
   (privilegedWord i && !s.w.super, 0x03#8),
   ((vectorFields i).any (fun p => decide (s.w.valloc < s.w.wbase + p.1 + p.2)) ||
      (s.w.legacy && (scalarFields i).any fun n => decide (64 ≤ n)) ||
      (opcode i == 0xEB && decide (s.w.valloc ≤ 16 * ((encode i).toNat / 2 ^ 20 % 2 ^ 4))), 0x05#8),
   ((codeTargets s.pc i).any (fun a => decide (a.toNat / 4 % 8 = 0)) ||
      ((registerTarget s.w i).map fun a => decide (a.toNat % 4 ≠ 0) || decide (a.toNat / 4 % 8 = 0)).getD false, 0x04#8)]

end Sys2Proof.Claims

open Sys2Proof.Claims

/-- R117, R125, R126, R127, R329: the first of the ranks 3 to 7 that applies to an instruction word is raised for the whole fragment, and the
instruction has no other effect; rank 3 is an ill-formed operand, as the fields of the word show it (`illFormedWord`). R329 gives the 0x01 of an
instruction that supervisor mode does not allow no rank: that it stands at rank 3, before the 0x02 of a masked feature, is the model's choice
(log 43). -/
def Obligations.FaultRanks : Prop :=
  (∀ i : Instr, i.isWord = true → i.wellFormed = !illFormedWord (encode i).toNat) ∧
  ∀ (i : Instr) (s : State) (b : Bool) (c : Code), i.isWord = true → (ranks s i).find? (·.1) = some (b, c) →
    exec i s = .next (s.raise { code := c, mask := s.w.frag.mask })

/-! ### Issuing (R13, R14, R101, R102, R124, R132) -/

namespace Sys2Proof.Claims

/-- The next step gives the slot of the warp its turn: no turn of a function must close first (R311), and the agenda says so, or it is empty
and the model's schedule does. -/
def TurnOf (s : State) (id : WarpId) (slot : Fin 2) (u : State) : Prop :=
  (∀ p ∈ s.parts, s.turnDue p = false) ∧
  ((∃ rest, s.agenda = .issue id slot :: rest ∧ u = { s.tick with agenda := rest }) ∨
    (s.agenda = [] ∧ s.eventFirst = false ∧ (s.freeIx + 1) % 4096 ≠ 0 ∧ u = s.tick ∧ u.nextIssue = some (id, slot)))

/-- In `u` the slot of warp `w` is the one that may issue (R14), and its next word stands in the block `b` of the core's instruction buffer:
no operation fault waits for it, its fragment does not stand at its join, and its program counter is no reed slot. -/
def Fetched (u : State) (id : WarpId) (slot : Fin 2) (w : Warp) (b : CodeBlock) : Prop :=
  let p := u.prepare id slot
  u.warp? id = some w ∧ w.active = true ∧ (u.readySlots w).head? = some slot ∧ (p.w.opFaults = [] ∨ p.w.super = true) ∧
    (p.w.super = true ∨ p.w.atJoin slot = false) ∧ p.pc.toNat / 4 % 8 ≠ 0 ∧ p.codeBlock p.w p.pc = some b

end Sys2Proof.Claims

/-- A step runs the instruction that the word at the program counter decodes to: where the scoreboard
(R132, R210, R217) lets it issue, the step is `exec` of it on the state in which the warp has its
turn, with what an issue adds around it (R13, R98, R100): in this cycle, or, where the core has
issued in it already, in the next one, before which a turn that must close does so (R311). Where it
does not, the slot waits, and so it does where an access of a unit for the instruction, not a silent
prefetch, would come out otherwise with every link up, until the 10 ms of R364 are over (log 37).
That the warp is the one whose turn to issue comes is the agenda of the model (log 1). -/
def Obligations.StepRunsDecoded : Prop :=
  ∀ (s u : State) (id : WarpId) (slot : Fin 2) (w : Warp) (b : CodeBlock) (i : Instr),
    TurnOf s id slot u → Fetched u id slot w b →
    let p := u.prepare id slot
    b.reed.toNat / 2 ^ 29 = 0 → decode (b.word p.pc) = .ok i →
      (∀ h, p.hazard i = some h → step s = .next (p.afterIssue (p.holdFor h) w b i)) ∧
      (p.hazard i = none →
        (p.cycleFull i = true → (∃ x ∈ p.parts, p.turnDue x = true) → step s = .next p) ∧
        ∀ q, q = (if p.cycleFull i then p.passTo (p.clock + 1) else p) →
          (p.cycleFull i = true → ∀ x ∈ p.parts, p.turnDue x = false) →
          let z : State := { q with w := { q.w with lastSlot := slot, yielded := q.w.yielded.set slot false } }
          let silent := (∃ y, i = .pft y) ∨ ∃ l a, i = .pref l a
          (∀ t, exec i z = .next t → (z.meetsCut (exec i) = false ∨ silent ∨ z.linkLost z.w slot = true) → step s = .next (q.afterIssue t w b i)) ∧
            (z.meetsCut (exec i) = true → ¬ silent → z.linkLost z.w slot = false → step s = .next (q.afterIssue (z.holdFor .link) w b i)))

/-- R101, R124: a block whose reed word has a reserved bit set, and a word that no table assigns, raise 0x01 for the whole fragment. -/
def Obligations.UndecodableWord : Prop :=
  ∀ (s u : State) (id : WarpId) (slot : Fin 2) (w : Warp) (b : CodeBlock),
    TurnOf s id slot u → Fetched u id slot w b →
    let p := u.prepare id slot
    (b.reed.toNat / 2 ^ 29 ≠ 0 ∨ ∀ i, decode (b.word p.pc) ≠ .ok i) →
      step s = .next (p.markBlocks (p.raise { code := 0x01#8, mask := p.w.frag.mask }) none).settled

/-! ### Memory (R4, R68) -/

/-- A memory in canonical form stays so, reads the bytes written where they were written, and every
other byte as before; memories in canonical form that read the same everywhere are equal. The
canonical form, and that an unlisted byte reads 0, are the model's (log 5). -/
def Obligations.MemoryReadAfterWrite : Prop :=
  ∀ m : Memory, m.wf = true →
    (∀ (a : Nat) (bytes : List Byte), (m.writeBytes a bytes).wf = true ∧
      ∀ x, (m.writeBytes a bytes).read x = if a ≤ x ∧ x < a + bytes.length then bytes.getD (x - a) 0#8 else m.read x) ∧
    ∀ n : Memory, n.wf = true → (∀ a, m.read a = n.read a) → m = n

/-- Every step keeps the canonical form of memory. The form is the model's (log 5). -/
def Obligations.StepKeepsMemoryCanonical : Prop := ∀ s t : State, s.Inv → step s = .next t → t.Inv

/-- Right after reset memory is canonical, the cycle counter is 0 (R123), no warp or context stands, and the sluice controller has not
started (R367); that a byte of memory reads 0 is the model's choice (log 5). -/
def Obligations.ResetState : Prop :=
  State.reset.Inv ∧ State.reset.clock = 0 ∧ State.reset.warps = [] ∧ State.reset.ctxs = [] ∧ State.reset.sluice.started = false ∧
    ∀ a, State.reset.mem.read a = 0#8

namespace Sys2Proof.Claims

/-- No bank holds a store or an atomic that it has accepted and not performed (R286). -/
def AcceptedNothing (s : State) : Prop :=
  (∀ p ∈ s.stores, p.taken = []) ∧ ∀ w ∈ s.warps, ∀ x ∈ w.loads, x.accepted.isSome = true → x.data.isSome = true

/-- The table that a walk of va reads k levels below the root (R64), and the address of its entry there: 9 bits of va, from bit 48 down. -/
def walkTable (s : State) (root va : Nat) : Nat → Nat
  | 0 => root
  | k + 1 => s.mem.readNat (walkTable s root va k + 8 * (va / 2 ^ (48 - 9 * k) % 2 ^ 9)) 8 / 2 ^ 12 % 2 ^ 40 * 2 ^ 12
def walkAddr (s : State) (root va k : Nat) : Nat := walkTable s root va k + 8 * (va / 2 ^ (48 - 9 * k) % 2 ^ 9)

/-- The entry there, and its fields loc, peer and frame (R65). -/
def walkEntry (s : State) (root va k : Nat) : Nat := s.mem.readNat (walkAddr s root va k) 8
def locOf (e : Nat) : Nat := e / 2 ^ 8 % 4
def peerOf (e : Nat) : Nat := e / 2 ^ 52 % 2 ^ 6
def frameOf (e : Nat) : Nat := e / 2 ^ 12 % 2 ^ 40 * 2 ^ 12

/-- An entry k levels below the root maps a page (R64, R65). -/
def MapsPage (e k : Nat) : Prop := k = 4 ∨ e.testBit 6 = true

/-- The entry has a zero field that is not zero, or a loc, a leaf or a frame that it cannot have there (R66): second row of the table. -/
def BadEntry (e k : Nat) : Prop :=
  e / 2 ^ 58 % 2 ^ 6 ≠ 0 ∨ e.testBit 11 = true ∨ (peerOf e ≠ 0 ∧ locOf e ≠ 2) ∨ locOf e = 3 ∨ (k < 2 ∧ e.testBit 6 = true) ∨
    (¬ MapsPage e k ∧ locOf e ≠ 0) ∨ (MapsPage e k ∧ frameOf e % 2 ^ (48 - 9 * k) ≠ 0)

/-- The walk reads an entry k levels below the root: all above it are valid table entries, and none is withheld (R79). -/
def WalkComes (s : State) (ctx root va k : Nat) : Prop :=
  ∀ j < k, s.sectorCode ctx (walkAddr s root va j) 8 = 0#8 ∧ (walkEntry s root va j).testBit 0 = true ∧ ¬ BadEntry (walkEntry s root va j) j ∧
    ¬ MapsPage (walkEntry s root va j) j

/-- The leaf e forbids the access (R66): rows 3 to 6 of the table. -/
def Forbids (a : Access) (super : Bool) (e : Nat) : Prop :=
  (a ∈ [.store, .atomic, .engineWrite] ∧ e.testBit 1 = false) ∨ (a ∈ [.load, .atomic, .engineRead] ∧ e.testBit 10 = true) ∨
    (super = false ∧ e.testBit 3 = true) ∨ (a = .fetch ∧ e.testBit 2 = false)

/-- The home address that a leaf gives va, o bytes into its page (R65): device DRAM, the host's memory or a peer's. -/
def homeUnder (e o : Nat) : Nat := (if locOf e = 0 then 0 else if locOf e = 1 then 2 ^ 56 else 2 ^ 57 + peerOf e * 2 ^ 52) + frameOf e + o

/-- Where the home lies outside the device, its translation there has not failed (R362). -/
def FarTranslates (s : State) (e ha : Nat) : Prop := locOf e = 0 ∨ s.farCode (ha / 64 * 64) false ≠ 0x08#8

end Sys2Proof.Claims

/-- R64 to R66, R362: what translating an address that no structure caches gives, access by access: 0x09 for bits above 56; else the first entry
of the walk that is withheld gives its code (R79), one that is not valid 0x08, one that R65 and R66 do not allow 0x09; a leaf that forbids the
access 0x09, and otherwise the home address, in a page of 1 GiB, 2 MiB or 4 KiB. R65, R68: using a translation writes nothing in memory but the low
bytes of the entries that its walk reads, and nothing at all where it is cached and does not need its dirty bit set. Where it is walked, and the
frames of the entries are the context's own, the accessed bit 4 is set in every entry of the walk, and for a write the dirty bit 5 in the leaf. Both
are stated where no bank holds back what it has accepted. When a translation leaves the cache is a choice of the model's agenda (log 4). -/
def Obligations.Translations : Prop :=
  ∀ (s : State) (h : TlbHome) (ctx va : Nat), s.mem.wf = true →
    (∀ (a : Access) (super : Bool),
      (2 ^ 57 ≤ va → s.translate h ctx a super va = .error 0x09#8) ∧
      ∀ c k, va < 2 ^ 57 → s.cached h ctx va = none → AcceptedNothing s → s.ctx? ctx = some c → k ≤ 4 → WalkComes s ctx c.pageTable va k →
        let code := s.sectorCode ctx (walkAddr s c.pageTable va k) 8
        let e := walkEntry s c.pageTable va k
        let ha := homeUnder e (va % 2 ^ (48 - 9 * k))
        (code ≠ 0#8 → s.translate h ctx a super va = .error code) ∧
        (code = 0#8 → e.testBit 0 = false → s.translate h ctx a super va = .error 0x08#8) ∧
        (code = 0#8 → e.testBit 0 = true → BadEntry e k → s.translate h ctx a super va = .error 0x09#8) ∧
        (code = 0#8 → e.testBit 0 = true → ¬ BadEntry e k → MapsPage e k →
          (Forbids a super e → s.translate h ctx a super va = .error 0x09#8) ∧
          (¬ Forbids a super e → (FarTranslates s e ha → s.translate h ctx a super va = .ok ha) ∧
            (¬ FarTranslates s e ha → s.translate h ctx a super va = .error 0x08#8)))) ∧
    ∀ write : Bool,
      let reads := walkReads s ctx va 5 (s.tableOf ctx)
      let u := s.touch h ctx va write
      (∀ e, s.cached h ctx va = some e → (write = false ∨ e.pte.getLsbD 5 = true) → u = s) ∧
      (∀ a, a ∉ reads → u.mem.read a = s.mem.read a) ∧
      ∀ l, (∀ e, s.cached h ctx va = some e → write = true ∧ e.pte.getLsbD 5 = false) → s.leaf h ctx va write = .ok l →
        AcceptedNothing s → (∀ ha ∈ reads, ha < 2 ^ 52 → s.owns ctx ha = true) →
        ∀ ha ∈ reads, u.mem.read ha = s.mem.read ha ||| if write = true ∧ ha = l.pteHa then 0x30#8 else 0x10#8

/-! ### Taking an exception and returning (R188, R324 to R330) -/

namespace Sys2Proof.Claims

/-- The issuing fragment of `s` completed its instruction: the warp `v`. -/
def Completed (s : State) (v : Warp) : Prop := v = { s.w with slots := v.slots, loops := v.loops } ∧ Advanced s.w v

/-- `t` is `s` after warp `v` of it entered its handler at `addr` with the code, mask and faultinfo (R328): what is kept, and the handler
fragment, whose program counter is a word's address (R96). -/
def Entered (s : State) (v : Warp) (addr : Nat) (code : Code) (mask : Mask) (va : Nat) (info : Word) (t : State) : Prop :=
  ∃ h : HandlerSave, h.slot = v.cur ∧ h.frag = v.frag ∧ h.wbase = v.wbase ∧ h.code = code ∧ h.va = va ∧ h.mask = mask ∧ h.info = info ∧
    h.noUser = false ∧ h.op = none ∧ (∀ i : Fin 16, h.bank[i] = v.scalars[112 + i.val]) ∧
    (∀ i : Fin 128, t.w.scalars[i] = if 112 ≤ i.val then 0#32 else v.scalars[i]) ∧
    t = { s with w := { v with
      handler := some h, super := true, wbase := 0, scalars := t.w.scalars, logged := t.w.logged, faultInfo := info, faultVa := va, faultMask := mask
      yielded := v.yielded.set v.cur false, replay := v.replay.set v.cur [], linkWait := v.linkWait.set v.cur none
      slots := v.slots.set v.cur ⟨.live, ⟨BitVec.ofNat 64 (addr / 4 * 4), mask, 0#32, none, v.frag.entered⟩⟩ } }

end Sys2Proof.Claims

/-- R188, R324, R326, R328: in user mode with a handler, `trap` and `brkpt` complete and then enter it; faultinfo holds the code, and the
trap's code16 in bits 31:16. That completing at the last word of a loop body takes the loop-end action, so that the kept program counter is
then the loop's, is read from R184 and R188 by inference (log 25); that a legacy warp's entry keeps the physical scalars 112 to 127 is the model's
choice (log 80). -/
def Obligations.TrapsEnterTheHandler : Prop :=
  ∀ (s : State) (i : Instr) (code : Code) (detail : Nat),
    (i, code, detail) ∈ [(.brkpt, 0x18#8, 0)] ∨ (∃ c, i = .trap c ∧ code = 0x17#8 ∧ detail = c.toNat) →
    s.precheck i = none → s.w.super = false → s.handlerAddr s.w.id.ctx ≠ 0 →
    ∃ v t, Completed s v ∧ exec i s = .next t ∧
      Entered s v (s.handlerAddr s.w.id.ctx) code s.w.frag.mask 0 (BitVec.ofNat 32 (detail * 2 ^ 16 + code.toNat)) t

/-- R253, R328, R330: `rfe` restores the fragment, `wbase` and s112 to s127, clears the supervisor bit and the fault registers, and changes nothing
else, where no operation fault is concerned; so a handler that returns at once leaves the warp as the trap or breakpoint found it, past the
instruction and with no yield or replay of it left over. That it is past the instruction by the loop-end action where that stands at the
last word of a loop body is read from R184 and R188 by inference (log 25); the scalars that a legacy warp gets back are the model's choice (log
80). -/
def Obligations.ReturnFromHandler : Prop :=
  (∀ (s : State) (h : HandlerSave), s.precheck .rfe = none → s.w.handler = some h → h.op = none → s.w.opFaults = [] →
    ∃ t, exec .rfe s = .next t ∧
      (∀ i : Fin 128, t.w.scalars[i] = if 112 ≤ i.val then h.bank[i.val - 112]! else s.w.scalars[i]) ∧
      t = { s with w := { s.w with
        handler := none, super := false, wbase := h.wbase, scalars := t.w.scalars, logged := t.w.logged, faultInfo := 0#32, faultVa := 0, faultMask := 0#32
        slots := s.w.slots.set h.slot (if h.noUser then ⟨.empty, Fragment.none⟩ else ⟨.live, h.frag⟩) } }) ∧
  ∀ (s t : State) (i : Instr), (i = .brkpt ∨ ∃ c, i = .trap c) → s.precheck i = none → s.w.super = false →
    s.w.handler = none → s.w.faultInfo = 0#32 → s.w.faultVa = 0 → s.w.faultMask = 0#32 → s.w.opFaults = [] →
    s.w.slots[s.w.cur].st = .live → s.handlerAddr s.w.id.ctx ≠ 0 → exec i s = .next t → t.precheck .rfe = none →
    ∃ v u, Completed s v ∧ exec .rfe t = .next u ∧
      u = { s with w := { v with
        yielded := v.yielded.set v.cur false, replay := v.replay.set v.cur [], linkWait := v.linkWait.set v.cur none, logged := u.w.logged } }

namespace Sys2Proof.Claims

/-- The fault takes route S (R324): its code has it, or there is no handler, or it arises in supervisor mode. -/
def TakesRouteS (s : State) (f : FaultInfo) : Prop :=
  f.code ≠ 0x08#8 ∧ f.code ≠ 0x17#8 ∧ f.code ≠ 0x18#8 ∨ s.w.super = true ∨ s.handlerAddr s.w.id.ctx = 0

/-- The record of the fault, and the code that its grid ends with: in supervisor mode those of the fault being handled, the new code nested (R329). -/
def recordOf (s : State) (f : FaultInfo) : Code × List Byte :=
  match s.w.handler with
  | none => (f.code, recordBytes s s.w f.code 0 (if f.op then 1 else 0) s.pc f.va f.mask f.word)
  | some h => (h.code, recordBytes s s.w h.code f.code (if h.info.getLsbD 10 then 1 else 0) h.frag.pc h.va h.mask h.info)

/-- The device's own path reaches the n bytes at va without a fault (R79, R325): at home address ha, in one sector, through table entries in
frames of the context, of which none lies in a sector of `apart`. -/
def Reaches (s : State) (ctx va n ha : Nat) (apart : List Nat) : Prop :=
  va + n ≤ 2 ^ 57 ∧ va % 64 + n ≤ 64 ∧ (∃ l, s.walk ctx va = .ok l ∧ l.home va = ha) ∧ ha % 64 = va % 64 ∧ s.owns ctx ha = true ∧
    ∀ e ∈ walkReads s ctx va 5 (s.tableOf ctx), e % 8 = 0 ∧ s.owns ctx e = true ∧ e / 64 ∉ apart

/-- Memory after bytes were written at ha by the device's own path, whose walk may have set bits in table entries. -/
def WrittenAt (s u : State) (entries : List Nat) (l : List (Nat × List Byte)) : Prop :=
  (∀ p ∈ l, ∀ k < p.2.length, u.mem.read (p.1 + k) = p.2.getD k 0#8) ∧
    ∀ a, a ∉ entries → (∀ p ∈ l, a < p.1 ∨ p.1 + p.2.length ≤ a) → u.mem.read a = s.mem.read a

end Sys2Proof.Claims

/-- R267, R324, R325, R327, R329: a fault of route S, or one for which there is no handler or that arises in supervisor mode, stops its warp,
writes the record into its context's fault queue and terminates the grid, with every warp of it stopped (`faulted` keeps the warps that have
faulted in the cycle, for the lowest-numbered to give the code, R267). The record goes to index producer mod
size of the queue that the control block names, and the producer increases by 1; where the queue is full or there is none, nothing but bit 0 of
the overflow byte is written. MSI-X vector 0 is sent after either; that it is all that happens where no control block can be read is the model's
choice (log 81). A record has the layout of R325. The memory clauses are stated where no
sector has an error and where the tables, the record and the control block lie apart. -/
def Obligations.RouteStops : Prop :=
  (∀ (s : State) (f : FaultInfo), TakesRouteS s f →
    let w : Warp := { s.w with stopped := true, recordStands := true, hold := Vector.replicate 2 none }
    let r := State.faultRecord { s with w := w, faulted := s.w.id :: s.faulted } s.w.id.ctx (recordOf s f).2
    s.raise f = r.1.terminate s.w.id.ctx s.w.id.grid (recordOf s f).1 r.2 (some s.w.id) ∧
    ∀ g, s.w.present = true → s.grid = some g → g.status ≠ 3 →
      ∀ v ∈ (s.raise f).warps, v.id.ctx = s.w.id.ctx → v.id.grid = s.w.id.grid → v.stopped = true) ∧
  (∀ (s : State) (c : Ctx) (record : List Byte), s.ctx? c.id = some c →
    let r := s.faultRecord c.id record
    (s.controlBlock c.id = none → r = (s.msix c.vf 0, 0)) ∧
    ∀ b, s.controlBlock c.id = some b → s.mem.wf = true → s.marks = [] → c.recordTable % 64 = 0 →
      let fq := leAt b 8 8
      let size := leAt b 16 4
      let producer := leAt b 20 4
      (∀ R P, size ≠ 0 → fq ≠ 0 → producer < size → record.length = 64 →
        let va := fq + 64 * (producer % size)
        Reaches s c.id va 64 R [P / 64] → Reaches s c.id (c.recordTable + 20) 4 P [R / 64] → R / 64 ≠ P / 64 →
        r.2 = va ∧ (∃ u : State, r.1 = u.msix c.vf 0 ∧ u.outbox = s.outbox) ∧
          WrittenAt s r.1 (walkReads s c.id va 5 c.pageTable ++ walkReads s c.id (c.recordTable + 20) 5 c.pageTable)
            [(R, record), (P, leBytes 4 (producer + 1))]) ∧
      ∀ Q, size = 0 ∨ fq = 0 ∨ size ≤ producer → Reaches s c.id (c.recordTable + 24) 1 Q [] →
        r.2 = 0 ∧ (∃ u : State, r.1 = u.msix c.vf 0 ∧ u.outbox = s.outbox) ∧
          WrittenAt s r.1 (walkReads s c.id (c.recordTable + 24) 5 c.pageTable) [(Q, [BitVec.ofNat 8 (leAt b 24 1 ||| 1)])]) ∧
  ∀ (s : State) (w : Warp) (code nested : Code) (source va : Nat) (pc : Addr) (mask : Mask) (info : Word),
    let r := recordBytes s w code nested source pc va mask info
    r.length = 64 ∧ leAt r 0 1 = code.toNat ∧ leAt r 1 1 = nested.toNat ∧ leAt r 2 1 = source % 2 ^ 8 ∧ leAt r 3 1 = 0 ∧
      leAt r 4 4 = w.id.grid % 2 ^ 32 ∧ leAt r 8 4 = w.id.team % 2 ^ 32 ∧ leAt r 12 2 = w.core.n % 2 ^ 16 ∧ leAt r 14 1 = w.id.warp % 2 ^ 8 ∧
      leAt r 15 1 = 0 ∧ leAt r 16 8 = pc.toNat % 2 ^ 57 ∧ leAt r 24 8 = va % 2 ^ 57 ∧ leAt r 32 4 = mask.toNat ∧ leAt r 36 4 = info.toNat ∧
      leAt r 40 8 = ((s.grid? w.id.ctx w.id.grid).map fun g => g.kernel % 2 ^ 64).getD 0 ∧
      leAt r 48 8 = s.clock % 2 ^ 64 ∧ leAt r 56 8 = 0

/-! ### Binary32 (R57, R119, R159 to R163) -/

namespace Sys2Proof.Claims

/-- A value as the rules take it (R37 to R39): a NaN or NaR, an infinity, or an exact real. -/
inductive Exact where
  | nan
  | inf (neg : Bool)
  | real (x : ℚ)
  deriving DecidableEq

/-- A binary format of R38: bits of exponent and mantissa, bias, the code of its largest finite magnitude, and whether it has infinities, whose
code then is the next one, with NaNs above it. -/
structure Fmt where
  e : Nat
  m : Nat
  bias : Nat
  top : Nat
  inf : Bool

/-- The formats of R38. -/
def fmtFP32 : Fmt := ⟨8, 23, 127, 0x7F7FFFFF, true⟩
def fmtFP16 : Fmt := ⟨5, 10, 15, 0x7BFF, true⟩
def fmtBF16 : Fmt := ⟨8, 7, 127, 0x7F7F, true⟩
def fmtE4M3 : Fmt := ⟨4, 3, 7, 0x7E, false⟩
def fmtE5M2 : Fmt := ⟨5, 2, 15, 0x7B, true⟩
def fmtE2M3 : Fmt := ⟨2, 3, 1, 0x1F, false⟩
def fmtE2M1 : Fmt := ⟨2, 1, 1, 0x7, false⟩

/-- The format of an element code (R35), but for LG6 (0) and E8M0 (8). -/
def fmtOf : Nat → Option Fmt
  | 1 => some fmtE4M3
  | 2 => some fmtE5M2
  | 3 => some fmtBF16
  | 4 => some fmtFP16
  | 5 => some fmtFP32
  | 6 => some fmtE2M3
  | 7 => some fmtE2M1
  | _ => none

/-- Place of the sign bit, the sign of a code, and a sign as a number to add to a code. -/
def Fmt.half (k : Fmt) : Nat := 2 ^ (k.e + k.m)
def Fmt.negative (k : Fmt) (c : Nat) : Bool := decide (c / k.half % 2 = 1)
def Fmt.signed (k : Fmt) (neg : Bool) (a : Nat) : Nat := if neg then k.half + a else a

/-- The magnitude that a code without its sign stands for: subnormal below 2^m. -/
def Fmt.magnitude (k : Fmt) (a : Nat) : ℚ :=
  if a < 2 ^ k.m then a * 2 ^ (1 - (k.bias : ℤ) - k.m) else (a % 2 ^ k.m + 2 ^ k.m : Nat) * 2 ^ ((a / 2 ^ k.m : Nat) - (k.bias : ℤ) - k.m)

/-- The value of a code (R38, R39). -/
def Fmt.value (k : Fmt) (c : Nat) : Exact :=
  let a := c % k.half
  if a ≤ k.top then .real (if k.negative c then -k.magnitude a else k.magnitude a)
  else if k.inf ∧ a = k.top + 1 then .inf (k.negative c) else .nan

/-- The canonical NaN (R39). -/
def Fmt.canonical (k : Fmt) : Nat := if k.inf then k.top + 1 + 2 ^ (k.m - 1) else k.top + 1

/-- The code is a signalling NaN (R39). -/
def Fmt.signals (k : Fmt) (c : Nat) : Bool := decide (k.value c = .nan) && k.inf && decide (c / 2 ^ (k.m - 1) % 2 = 0)

/-- The mode rounds values of the sign away from zero (R57): mode 2 toward plus infinity, 3 toward minus infinity. -/
def outward (mode : BitVec 2) (neg : Bool) : Prop := mode = 2 ∧ neg = false ∨ mode = 3 ∧ neg = true

/-- Rounding x as if the format's exponents were unbounded above gives more than its largest finite magnitude (R57, R58). -/
def Fmt.beyondTop (k : Fmt) (mode : BitVec 2) (x : ℚ) : Prop :=
  let t := k.magnitude k.top
  let ulp : ℚ := 2 ^ ((k.top / 2 ^ k.m : Nat) - (k.bias : ℤ) - k.m)
  (mode = 0 → t + ulp / 2 < |x| ∨ t + ulp / 2 = |x| ∧ k.top % 2 = 1) ∧ (outward mode (decide (x < 0)) → t < |x|) ∧
    (mode ≠ 0 → ¬ outward mode (decide (x < 0)) → t + ulp ≤ |x|)

/-- Rounding x as if the format's exponents were unbounded below gives less than its smallest normal magnitude (R57). -/
def Fmt.tiny (k : Fmt) (mode : BitVec 2) (x : ℚ) : Prop :=
  let b : ℚ := 2 ^ (1 - (k.bias : ℤ))
  (mode = 0 → |x| < b - b * 2 ^ (-(k.m : ℤ) - 2)) ∧ (outward mode (decide (x < 0)) → |x| ≤ b - b * 2 ^ (-(k.m : ℤ) - 1)) ∧ |x| < b

/-- r is the finite value with code c to which x is rounded (R57): mode 0 to the nearest, a tie to the even code; 1 toward zero; 2 toward plus
infinity; 3 toward minus infinity. -/
def Fmt.roundsTo (k : Fmt) (mode : BitVec 2) (x r : ℚ) (c : Nat) : Prop :=
  k.value c = .real r ∧
    match mode.toNat with
    | 0 => ∀ d z, k.value d = .real z → |r - x| < |z - x| ∨ |r - x| = |z - x| ∧ (z = r ∨ c % 2 = 0)
    | 1 => |r| ≤ |x| ∧ 0 ≤ r * x ∧ ∀ d z, k.value d = .real z → |z| ≤ |x| → |z| ≤ |r|
    | 2 => x ≤ r ∧ ∀ d z, k.value d = .real z → x ≤ z → r ≤ z
    | _ => r ≤ x ∧ ∀ d z, k.value d = .real z → z ≤ x → z ≤ r

/-- A code and flags are the exact real x, of the sign given, rounded once (R57, R58, R60): in range they are the value rounded under the mode, with
inexact (0x10) where it differs and underflow (8) where it is tiny besides; beyond it with a saturation request the largest magnitude and
saturation (0x20), and without one an infinity (E4M3: its NaN), or where the mode rounds toward zero the largest magnitude, with overflow and
inexact (0x14). -/
def Fmt.rounded (k : Fmt) (mode : BitVec 2) (sat : Bool) (x : ℚ) (neg : Bool) (p : Nat × Word) : Prop :=
  (¬ k.beyondTop mode x → k.negative p.1 = neg ∧ p.1 < 2 * k.half ∧
    ∃ r, k.roundsTo mode x r p.1 ∧ (r = x → p.2 = 0#32) ∧ (r ≠ x → k.tiny mode x → p.2 = 0x18#32) ∧ (r ≠ x → ¬ k.tiny mode x → p.2 = 0x10#32)) ∧
  (k.beyondTop mode x → sat = true → p = (k.signed neg k.top, 0x20#32)) ∧
  (k.beyondTop mode x → sat = false → p.2 = 0x14#32 ∧
    (mode = 0 ∨ outward mode neg → p.1 = if k.inf then k.signed neg (k.top + 1) else k.top + 1) ∧
    (mode ≠ 0 → ¬ outward mode neg → p.1 = k.signed neg k.top))

/-- A code and flags are a result delivered in a format: a NaN is canonical, with invalid (1) where the operation is; an infinity keeps its sign,
and where the format has none overflows (R39, R57 to R60). -/
def Fmt.delivers (k : Fmt) (mode : BitVec 2) (sat : Bool) (x : Exact) (neg invalid : Bool) (p : Nat × Word) : Prop :=
  match x with
  | .nan => p = (k.canonical, if invalid then 1#32 else 0#32)
  | .inf n => p = if k.inf then (k.signed n (k.top + 1), 0#32) else if sat then (k.signed n k.top, 0x20#32) else (k.top + 1, 0x14#32)
  | .real x => k.rounded mode sat x neg p

/-- Sums and products of values (R45, R159): opposite infinities, and an infinity times zero, give a NaN. -/
def Exact.plus : Exact → Exact → Exact
  | .nan, _ | _, .nan => .nan
  | .inf a, .inf b => if a = b then .inf a else .nan
  | .inf a, _ => .inf a
  | _, .inf b => .inf b
  | .real x, .real y => .real (x + y)
def Exact.times (neg : Bool) : Exact → Exact → Exact
  | .nan, _ | _, .nan => .nan
  | .real x, .real y => .real (x * y)
  | .real x, .inf _ | .inf _, .real x => if x = 0 then .nan else .inf neg
  | .inf _, .inf _ => .inf neg

/-- The value of a binary32 word, and its sign. -/
def valueOf (w : Word) : Exact := fmtFP32.value w.toNat
def signOf (w : Word) : Bool := w.getLsbD 31

/-- The sign of a sum of two signed terms (R159): an exact zero has that of both, or that of the mode. -/
def sumSign (mode : BitVec 2) (na nb : Bool) : Exact → Bool
  | .real s => if s = 0 then (if na = nb then na else decide (mode = 3)) else decide (s < 0)
  | _ => false

/-- A word and flags as a code and flags. -/
def asCode (p : Word × Word) : Nat × Word := (p.1.toNat, p.2)

/-! #### LG6 (R36, R37, R44, R50) -/

/-- The constants N of R37. -/
def lgN (i : Nat) : ℚ := match i % 4 with | 0 => 1024 | 1 => 1218 | 2 => 1448 | _ => 1722

/-- The magnitude of q = 1 to 31, and the value of a code (R36, R37). -/
def lgMagnitude (q : Nat) : ℚ := lgN q * 2 ^ (((q / 4 : Nat) : ℤ) - 14)
def lgValue (c : Nat) : Exact :=
  let neg := decide (c / 32 % 2 = 1)
  if c % 32 = 0 then (if neg then .nan else .real 0) else .real (if neg then -lgMagnitude (c % 32) else lgMagnitude (c % 32))

/-- The product of two codes (R44). -/
def lgProduct (a b : Nat) : Exact :=
  if lgValue a = .nan ∨ lgValue b = .nan then .nan
  else if a % 32 = 0 ∨ b % 32 = 0 then .real 0
  else
    let s := a % 32 + b % 32
    let mag : ℚ := lgN s * 2 ^ (((s / 4 : Nat) : ℤ) - 18)
    .real (if a / 32 % 2 = b / 32 % 2 then mag else -mag)

/-- What `lg6_quant` makes of a value (R50): the code, and which of NaR produced (0x40), saturation (0x20), inexact (0x10) and underflow (8) it
reports. -/
def lgQuant (x : Exact) (p : Nat × Word) : Prop :=
  match x with
  | .nan => p = (32, 0x40#32)
  | .inf neg => p = (if neg then 63 else 31, 0x20#32)
  | .real x =>
    let sign := if x < 0 then 32 else 0
    let y := |x|
    (13.453125 < y → p = (sign + 31, 0x20#32)) ∧
    (y ≤ 609 / 16384 → p = (0, if x = 0 then 0#32 else 0x18#32)) ∧
    (609 / 16384 < y → y ≤ 13.453125 → ∃ q, 1 ≤ q ∧ q ≤ 31 ∧ p = (sign + q, if lgMagnitude q = y then 0#32 else 0x10#32) ∧
      ∀ r, 1 ≤ r → r ≤ 31 → |lgMagnitude q - y| < |lgMagnitude r - y| ∨ |lgMagnitude q - y| = |lgMagnitude r - y| ∧ (r = q ∨ q % 2 = 0))

/-! #### Conversions (R58, R163) -/

/-- The binary format of a conversion code. -/
def convFmt : Nat → Option Fmt
  | 0 => some fmtFP32
  | 1 => some fmtFP16
  | 2 => some fmtBF16
  | 5 => some fmtE4M3
  | 6 => some fmtE5M2
  | _ => none

/-- What a lane holds under a source code: its value, its sign, and whether it is a signalling NaN. -/
def convRead (s : Nat) (w : Word) : Exact × Bool × Bool :=
  match convFmt s with
  | some k => (k.value (w.toNat % (2 * k.half)), k.negative w.toNat, k.signals (w.toNat % (2 * k.half)))
  | none =>
    if s = 3 then (.real (w.toInt : ℚ), decide (w.toInt < 0), false)
    else if s = 4 then (.real (w.toNat : ℚ), false, false)
    else (lgValue (w.toNat % 64), w.getLsbD 5 && decide (w.toNat % 32 ≠ 0), false)

/-- n is x rounded to an integer under the mode (R57). -/
def roundsToInt (mode : BitVec 2) (x : ℚ) (n : Int) : Prop :=
  match mode.toNat with
  | 0 => |(n : ℚ) - x| < 1 / 2 ∨ |(n : ℚ) - x| = 1 / 2 ∧ n % 2 = 0
  | 1 => |(n : ℚ)| ≤ |x| ∧ 0 ≤ n * x ∧ |x| < |(n : ℚ)| + 1
  | 2 => x ≤ n ∧ (n : ℚ) < x + 1
  | _ => (n : ℚ) ≤ x ∧ x < n + 1

/-- A conversion to an integer between two bounds (R58): a NaN gives 0, a value outside the range the nearest bound, both with invalid. That the range
is judged after the rounding is the model's choice (log 52), and so is that a fraction sets no flag (log 21). -/
def convInt (mode : BitVec 2) (lo hi : Int) (x : Exact) (p : Word × Word) : Prop :=
  match x with
  | .nan => p = (0#32, 1#32)
  | .inf neg => p = (BitVec.ofInt 32 (if neg then lo else hi), 1#32)
  | .real x => ∃ n, roundsToInt mode x n ∧
      p = if n < lo then (BitVec.ofInt 32 lo, 1#32) else if hi < n then (BitVec.ofInt 32 hi, 1#32) else (BitVec.ofInt 32 n, 0#32)

/-- What `vcvt` delivers for a lane (R58), by source and destination code. -/
def converted (mode : BitVec 2) (s d : Nat) (sat : Bool) (w : Word) (p : Word × Word) : Prop :=
  let v := convRead s w
  let same := s = d
  let integers := s = 3 ∧ d = 4 ∨ s = 4 ∧ d = 3
  (same → p = (match convFmt d with | some k => low32 (w.toNat % (2 * k.half)) | none => if d = 7 then low32 (w.toNat % 64) else w, 0#32)) ∧
  (integers → p = if sat ∧ w.getLsbD 31 = true then (if d = 3 then 0x7FFFFFFF#32 else 0#32, 0x20#32) else (w, 0#32)) ∧
  (¬ same → d = 7 → ∃ f, lgQuant v.1 (p.1.toNat, f) ∧ p.2 = f ||| if v.2.2 then 1#32 else 0#32) ∧
  (¬ integers → ¬ same → d = 3 → convInt mode (-(2 ^ 31)) (2 ^ 31 - 1) v.1 p) ∧
  (¬ integers → ¬ same → d = 4 → convInt mode 0 (2 ^ 32 - 1) v.1 p) ∧
  ∀ k, ¬ same → convFmt d = some k → k.delivers mode sat v.1 v.2.1 v.2.2 (asCode p)

/-- A NaN, and a signalling one. -/
def isNaN (w : Word) : Bool := decide (w.toNat / 2 ^ 23 % 2 ^ 8 = 255) && decide (w.toNat % 2 ^ 23 ≠ 0)
def isSNaN (w : Word) : Bool := isNaN w && !w.getLsbD 22

/-- The order of binary32 words that are not NaN, by their bits; both zeros have one place. -/
def place (w : Word) : Int := let n : Int := (w.toNat % 2 ^ 31 : Nat); if w.getLsbD 31 then -n else n

/-- The column `vfcmp` of R119. -/
def floatHolds (c : BitVec 3) (x y : Word) : Bool :=
  let un := isNaN x || isNaN y
  match c.toNat with
  | 0 => !un && decide (place x = place y)
  | 1 => un || decide (place x ≠ place y)
  | 2 => !un && decide (place x < place y)
  | 3 => !un && decide (place y ≤ place x)
  | 4 => un || decide (place x < place y)
  | 5 => un || decide (place y ≤ place x)
  | 6 => un
  | _ => !un

/-- The flags of a `vfcmp` (R119): invalid, bit 0. -/
def floatHoldsFlags (c : BitVec 3) (x y : Word) : Word :=
  if (if 2 ≤ c.toNat ∧ c.toNat ≤ 5 then isNaN x || isNaN y else isSNaN x || isSNaN y) then 1#32 else 0#32

/-- The smaller or larger of two words (R160): -0 lies below +0, a NaN yields the other operand, two NaNs the canonical one. -/
def floatPick (larger : Bool) (x y : Word) : Word :=
  if isNaN x then (if isNaN y then 0x7FC00000#32 else y)
  else if isNaN y then x
  else if place x < place y ∨ place x = place y ∧ x.getLsbD 31 = true then (if larger then y else x)
  else (if larger then x else y)

/-- The binary32 instructions of R159 to R163 on one lane: destination, value and flags. What `addF32` and its fellows give, and the
special results of `elementary`, are the subject of `FloatsRoundOnce`. -/
def floatLane (w : Warp) (k : Fin 32) : Instr → Option (Reg × Word × Word)
  | .vfadd u r d a b => some (d, addF32 r (lane w a k) (second w u b k))
  | .vfsub u r d a b => some (d, addF32 r (lane w a k) (second w u b k ^^^ 0x80000000#32))
  | .vfmul u r d a b => some (d, mulF32 r (lane w a k) (second w u b k))
  | .vfma u r d a b => some (d, fmaF32 r (lane w a k) (second w u b k) (lane w d k))
  | .vfmin u d a b => some (d, floatPick false (lane w a k) (second w u b k),
      if isSNaN (lane w a k) || isSNaN (second w u b k) then 1#32 else 0#32)
  | .vfmax u d a b => some (d, floatPick true (lane w a k) (second w u b k),
      if isSNaN (lane w a k) || isSNaN (second w u b k) then 1#32 else 0#32)
  | .vxf d a f => some (d, elementary f (lane w a k))
  | .vcvt r d a c e q => some (d, convert r c.toNat e.toNat (q == 1#1) (lane w a k))
  | _ => none

end Sys2Proof.Claims

/-- R159, R160, R162, R163: the binary32 instructions lane by lane; every active lane is written and its flags are collected. R119, R154, R161:
compares write the active threads' bits of the predicate and keep the others; `vfcmp` follows its column, with invalid for a NaN in codes 2 to
5 and for a signalling NaN in the others. -/
def Obligations.VectorFloats : Prop :=
  ∀ (s : State),
    (∀ (i : Instr) (d : Reg) (v : Fin 32 → Word × Word), (∀ k, floatLane s.w k i = some (d, v k)) → s.precheck i = none →
      ∃ t, exec i s = .next t ∧ VectorResult s t [(d.toNat, fun k => (v k).1)] fun k => (v k).2) ∧
    (∀ (i : Instr) (p : Pred) (v : Fin 32 → Bool × Word), (∀ k, compareLane s.w k i = some (p, v k)) → s.precheck i = none →
      ∃ t, exec i s = .next t ∧ PredicateResult s t p (fun k => (v k).1) fun k => (v k).2) ∧
    ∀ (u : BitVec 1) (c : BitVec 3) (p : Pred) (a b : Reg), s.precheck (.vfcmp u c p a b) = none →
      ∃ t, exec (.vfcmp u c p a b) s = .next t ∧
        PredicateResult s t p (fun k => floatHolds c (lane s.w a k) (second s.w u b k)) fun k => floatHoldsFlags c (lane s.w a k) (second s.w u b k)

/-! ### The numbers of matrix operations and drains (R30, R35 to R56) -/

namespace Sys2Proof.Claims

/-- Lane k of a half after n strides of the butterfly network of R171. -/
def butterfly (x : Nat → Word) : Nat → Nat → Word
  | 0, k => x k
  | n + 1, k =>
    if k.testBit n then (subF32 0#2 (butterfly x n (k - 2 ^ n)) (butterfly x n k)).1 else (addF32 0#2 (butterfly x n k) (butterfly x n (k + 2 ^ n))).1

/-- What a code stands for under an element code that is legal as A or B (R35 to R38), and its sign. -/
def elementValue (f c : Nat) : Exact := match fmtOf f with | some k => k.value c | none => lgValue c
def elementSign (f c : Nat) : Bool := match fmtOf f with | some k => k.negative c | none => decide (c / 32 % 2 = 1)

/-- The fields of a format register (R42), and two codes of one family (R35). -/
def aCode (f : Word) : Nat := f.toNat % 16
def bCode (f : Word) : Nat := f.toNat / 2 ^ 4 % 16
def scaleMode (f : Word) : Nat := f.toNat / 2 ^ 8 % 4
def oneFamily (a b : Nat) : Prop := a = 0 ∧ b = 0 ∨ a ∈ [1, 2, 6, 7] ∧ b ∈ [1, 2, 6, 7] ∨ a ∈ [3, 4] ∧ b ∈ [3, 4]

/-- The product of two elements (R44, R45). -/
def elementProduct (fa fb a b : Nat) : Exact :=
  if fa = 0 then lgProduct a b else Exact.times (elementSign fa a != elementSign fb b) (elementValue fa a) (elementValue fb b)

/-- A scale byte (R38, R46). -/
def scaleByte (b : Nat) : Exact := if b = 255 then .nan else .real (2 ^ ((b : ℤ) - 127))

/-- A value under a scale. -/
def scaledBy (x y : Exact) : Exact := Exact.times (decide (x = .inf true)) x y

/-- The product is a NaN that no element brings. -/
def newNaN (fa fb : Nat) (t : Nat × Nat × Nat) : Bool :=
  decide (elementProduct fa fb t.2.1 t.2.2 = .nan) && !decide (elementValue fa t.2.1 = .nan) && !decide (elementValue fb t.2.2 = .nan)

/-- The chunk of families L and S over its terms, each an index in the chunk and the codes of A and B (R45, R49); `scale` is f of a half. c is the
exact sum rounded once to the nearest; the flags are invalid (1) for a NaN that no element brings and for opposite infinities, overflow (4) of
the rounding, and NaR produced (0x40). -/
def ExactChunk (fa fb : Nat) (terms : List (Nat × Nat × Nat)) (scale : Nat → Exact) (c flags : Word) : Prop :=
  let p (t : Nat × Nat × Nat) : Exact := scaledBy (elementProduct fa fb t.2.1 t.2.2) (scale (t.1 / 32))
  let has (x : Exact) : Bool := terms.any fun t => decide (p t = x)
  let total := (terms.map p).foldl Exact.plus (.real 0)
  let invalid := decide (fa ≠ 0) && (terms.any (newNaN fa fb) || (!has .nan && has (.inf false) && has (.inf true)))
  let nar := decide (fa = 0) && terms.any fun t => decide (elementProduct fa fb t.2.1 t.2.2 = .nan)
  ∃ f, fmtFP32.delivers 0#2 false total (match total with | .real x => decide (x < 0) | _ => false) false (c.toNat, f) ∧
    flags = (if invalid then 1#32 else 0#32) ||| (f &&& 4#32) ||| if nar then 0x40#32 else 0#32

/-- A node of the pairwise tree of R47 over rounded products, n levels up, and the flags of all its sums. -/
def treeOf (x : Nat → Word) : Nat → Nat → Word
  | 0, j => x j
  | n + 1, j => (addF32 0#2 (treeOf x n (2 * j)) (treeOf x n (2 * j + 1))).1
def treeFlags (x : Nat → Word) : Nat → Nat → Word
  | 0, _ => 0#32
  | n + 1, j => (addF32 0#2 (treeOf x n (2 * j)) (treeOf x n (2 * j + 1))).2 ||| treeFlags x n (2 * j) ||| treeFlags x n (2 * j + 1)

/-- The chunk of family W over the codes of A and B (R47): each product rounded to the nearest, summed by the tree; invalid and overflow of the
products and sums. -/
def TreeChunk (fa fb : Nat) (a b : Nat → Nat) (c flags : Word) : Prop :=
  ∃ (x : Nat → Word) (f : Nat → Word),
    (∀ k < 64, fmtFP32.delivers 0#2 false (elementProduct fa fb (a k) (b k)) (elementSign fa (a k) != elementSign fb (b k)) (newNaN fa fb (k, a k, b k))
      ((x k).toNat, f k)) ∧
    c = treeOf x 6 0 ∧ flags = (treeFlags x 6 0 ||| (List.range 64).foldl (fun g k => g ||| f k) 0#32) &&& 5#32

/-- Row i, column j of a table of codes. -/
def cell (t : List (List Nat)) (i j : Nat) : Nat := (((t[i]?).getD [])[j]?).getD 0

/-- The scale of an operand at a place of its scale tile (R46). -/
def scaleOf (mode : Nat) (t : Tile) (i j : Nat) : Exact :=
  if mode = 0 then .real 1 else if mode = 1 then scaleByte (cell t.scales i j) else scaleByte (cell t.scales 0 0)

/-- First row of member k's band in a gang of g (R30): each has 16 / g units of 8 rows, the first 16 mod g one more. -/
def bandStart (g k : Nat) : Nat := 8 * (k * (16 / g) + min k (16 % g))

/-- An element after a joint operation (R45, R47 to R49): the old one, or +0, plus its chunk, rounded once; its flags are those that the operation
can set. `idx` holds the indices of `mmsp`, whose bits 5:0 count. -/
def Accumulated (f : Word) (old : Word) (a b : Tile) (idx : Option (List (List Nat))) (m n : Nat) (p : Word × Word) : Prop :=
  let k (j : Nat) : Nat := match idx with | none => j | some t => cell t j n % 64
  let count := match idx with | none => 64 | some t => t.length
  ∃ c g, p.1 = (addF32 0#2 old c).1 ∧ p.2 &&& 0x45#32 = ((addF32 0#2 old c).2 ||| g) &&& 0x45#32 ∧
    if aCode f ∈ [3, 4] then TreeChunk (aCode f) (bCode f) (fun j => cell a.codes m j) (fun j => cell b.codes j n) c g
    else ExactChunk (aCode f) (bCode f) ((List.range count).map fun j => (k j, cell a.codes m (k j), cell b.codes j n))
      (fun h => scaledBy (scaleOf (scaleMode f) a m h) (scaleOf (scaleMode f) b h n)) c g

/-- A finite value rounded to the nearest into a format, with the largest magnitude and saturation (0x20) beyond it (R54, R56). -/
def Fmt.clamps (k : Fmt) (x : ℚ) (neg : Bool) (p : Nat × Word) : Prop :=
  (k.beyondTop 0#2 x → p = (k.signed neg k.top, 0x20#32)) ∧
  (¬ k.beyondTop 0#2 x → k.negative p.1 = neg ∧ p.1 < 2 * k.half ∧ p.2 = 0#32 ∧ ∃ r, k.roundsTo 0#2 x r p.1)

/-- An element drained without block scales (R56). -/
def drainedPlain (d : Nat) (w : Word) (p : Nat × Word) : Prop :=
  match fmtOf d with
  | none => ∃ f, lgQuant (valueOf w) (p.1, f) ∧ p.2 = f &&& 0x60#32
  | some k =>
    match valueOf w with
    | .nan => p = (k.canonical, 0#32)
    | .inf n => p = if k.inf then (k.signed n (k.top + 1), 0#32) else (k.signed n k.top, 0x20#32)
    | .real x => k.clamps x (signOf w) p

/-- X is the largest magnitude in a block of finite values. -/
def Largest (b : List Word) (x : ℚ) : Prop :=
  (∃ w ∈ b, ∃ y, valueOf w = .real y ∧ x = |y|) ∧ ∀ w ∈ b, ∃ y, valueOf w = .real y ∧ |y| ≤ x

/-- A block's E before the clamp: floor(log2 X) - emax (R54), and for LG6 the smallest with X / 2^E at most 13.453125 (R55). -/
def BlockExponent (d : Nat) (x : ℚ) (n : ℤ) : Prop :=
  if d = 0 then x ≤ 13.453125 * 2 ^ n ∧ 13.453125 * 2 ^ (n - 1) < x
  else let emax : ℤ := if d = 1 then 8 else 2; (2 : ℚ) ^ (n + emax) ≤ x ∧ x < 2 ^ (n + emax + 1)

/-- A block of 32 elements drained with its scale (R54, R55): codes, scale byte, flags. -/
def drainedBlock (d : Nat) (b : List Word) (codes : List Nat) (scale : Nat) (flags : Word) : Prop :=
  let bad := b.any fun w => decide (valueOf w = .nan) || decide (valueOf w = .inf true) || decide (valueOf w = .inf false)
  let infinite := if b.any fun w => decide (valueOf w = .inf true) || decide (valueOf w = .inf false) then 4#32 else 0#32
  let top := ((fmtOf d).map (·.half)).getD 0
  codes.length = b.length ∧
  (bad = true → scale = 255 ∧ (∀ c ∈ codes, c = if d = 0 then 32 else if d = 1 then 0x7F else 0) ∧ flags = infinite ||| if d = 0 then 0x40#32 else 0#32) ∧
  ((∀ w ∈ b, valueOf w = .real 0) → scale = 0 ∧ codes = (b.map fun w => if signOf w then top else 0) ∧ flags = 0#32) ∧
  ∀ x, Largest b x → 0 < x →
    ∃ (n : ℤ) (f : List Word), BlockExponent d x n ∧ f.length = b.length ∧ flags = f.foldl (· ||| ·) 0#32 ∧
      let e := max (-127) (min 127 n)
      scale = (e + 127).toNat ∧
      ∀ (i : Nat) (w : Word) (y : ℚ) (c : Nat) (g : Word), b[i]? = some w → valueOf w = .real y → codes[i]? = some c → f[i]? = some g →
        match fmtOf d with
        | none => ∃ h, lgQuant (.real (y / 2 ^ e)) (c, h) ∧ g = h &&& 0x60#32
        | some k => k.clamps (y / 2 ^ e) (signOf w) (c, g)

/-- State n of the register of R51, whose bit 0 says whether element n of a block is negated. -/
def lfsr (start : Word) : Nat → Word
  | 0 => start
  | n + 1 => (lfsr start n >>> 1) ^^^ if (lfsr start n).getLsbD 0 then 0xD0000001#32 else 0#32

/-- Element k of a block of 2^n values rotated (R51): signs, butterfly, and the scale of 2^n. -/
def rotated (x : Nat → Word) (n : Nat) (seed : Word) (blk : Nat) (k : Nat) : Word :=
  let start := seed ^^^ BitVec.ofNat 32 (blk * 0x9E3779B9 % 2 ^ 32)
  let start := if start = 0#32 then 1#32 else start
  (mulF32 0#2 (butterfly (fun j => if (lfsr start j).getLsbD 0 then x j ^^^ 0x80000000#32 else x j) n k)
    (if n = 4 then 0x3E800000#32 else if n = 6 then 0x3E000000#32 else 0x3D800000#32)).1

end Sys2Proof.Claims

/-- R44 to R49: every element of the accumulator after a joint operation, with the B of the member whose band holds its row (R30). R51, R52: a row
rotated in blocks of 16, 64 or 256. R53 to R56: a row drained in each format, with and without block scales. That the flags of LG6 elements
that reach `nflags` are saturation and NaR is R60's. -/
def Obligations.MatrixNumbers : Prop :=
  (∀ (f : Word) (zero : Bool) (a : Tile) (bs : List (Nat × Nat × Tile)) (idx : Option (List (List Nat))) (acc : Vector (Vector Word 128) 128),
    oneFamily (aCode f) (bCode f) → (aCode f ∈ [3, 4] → idx = none) →
    (∀ b ∈ bs, b.2.2.codes.length = match idx with | none => 64 | some t => t.length) →
    (bs.map fun b => (b.1, b.2.1)) = (List.range bs.length).map (fun i => (bandStart bs.length i, bandStart bs.length (i + 1))) →
    ∀ b ∈ bs, ∀ m n : Fin 128, b.1 ≤ m.val → m.val < b.2.1 →
      ∃ row p, (multiplied f zero a bs idx acc)[m.val]? = some row ∧ row[n.val]? = some p ∧
        Accumulated f (if zero then 0#32 else acc[m][n]) a b.2.2 idx m.val n.val p) ∧
  (∀ (n : Nat) (seed : Word) (linear : Nat) (row : List Word), n ∈ [4, 6, 8] → row.length % 2 ^ n = 0 → linear % 2 ^ n = 0 →
    (rotateRow (2 ^ n) seed linear row).1 = (List.range row.length).map fun k =>
      rotated (fun j => (row[k / 2 ^ n * 2 ^ n + j]?).getD 0#32) n seed ((linear + k) / 2 ^ n) (k % 2 ^ n)) ∧
  (∀ row : List Word, drainRow 5 false row = (row.map (·.toNat), [], 0#32)) ∧
  (∀ (d : Nat) (row : List Word), d < 5 →
    ∃ f : List Word, f.length = row.length ∧ (drainRow d false row).1.length = row.length ∧ (drainRow d false row).2 = ([], f.foldl (· ||| ·) 0#32) ∧
      ∀ (i : Nat) (w : Word) (c : Nat) (g : Word), row[i]? = some w → (drainRow d false row).1[i]? = some c → f[i]? = some g → drainedPlain d w (c, g)) ∧
  ∀ (d : Nat) (row : List Word), d ∈ [0, 1, 6, 7] → row.length % 32 = 0 →
    let r := drainRow d true row
    ∃ f : List Word, f.length = row.length / 32 ∧ r.1.length = row.length ∧ r.2.1.length = row.length / 32 ∧ r.2.2 = f.foldl (· ||| ·) 0#32 ∧
      ∀ (i e : Nat) (g : Word), r.2.1[i]? = some e → f[i]? = some g → drainedBlock d ((row.drop (32 * i)).take 32) ((r.1.drop (32 * i)).take 32) e g

namespace Sys2Proof.Claims

/-- A word and no flags are the binary32 value nearest to y, a tie to the one whose least significant bit is 0 (R59). -/
def NearestTo (y : ℝ) (p : Word × Word) : Prop :=
  p.2 = 0#32 ∧ ∃ r : ℚ, valueOf p.1 = .real r ∧
    ∀ (d : Word) (z : ℚ), valueOf d = .real z → |(r : ℝ) - y| < |(z : ℝ) - y| ∨ |(r : ℝ) - y| = |(z : ℝ) - y| ∧ (z = r ∨ p.1.getLsbD 0 = false)

end Sys2Proof.Claims

/-- R57, R159: sums, products and fused sums of binary32 values are the exact result rounded once under each rounding mode, an overflow as the mode
gives it, with the flags of R60; infinities and NaNs give what R39 and R159 say. R36 to R39, R50, R58, R163: `vcvt` between every two of its
formats; that it sets inexact and underflow between floats, and what it leaves unsaid about integers, is the model's (logs 21, 52, 53). R59,
R60: rcp, rsq and sqrt (codes 0, 1, 2) of every finite value but zero are the nearest binary32 value, with no flag, and for rcp an infinity with
overflow (bit 2) beyond the range; the special results of these and of ex2, lg2, sin, cos and tanh (3 to 7) at zeros, infinities, negative values,
NaN and integers from 2^23 on, with their flags (bit 0 invalid, bit 1 division by zero). -/
def Obligations.FloatsRoundOnce : Prop :=
  (∀ (mode : BitVec 2) (a b c : Word),
    let x := valueOf a
    let y := valueOf b
    let z := valueOf c
    let neg := signOf a != signOf b
    let sum := x.plus y
    let product := Exact.times neg x y
    let fused := product.plus z
    let new (r : Exact) (l : List Exact) : Bool := decide (r = .nan) && !l.contains .nan
    fmtFP32.delivers mode false sum (sumSign mode (signOf a) (signOf b) sum) (isSNaN a || isSNaN b || new sum [x, y]) (asCode (addF32 mode a b)) ∧
    fmtFP32.delivers mode false product neg (isSNaN a || isSNaN b || new product [x, y]) (asCode (mulF32 mode a b)) ∧
    fmtFP32.delivers mode false fused (sumSign mode neg (signOf c) fused)
      (isSNaN a || isSNaN b || isSNaN c || new product [x, y] || new fused [x, y, z]) (asCode (fmaF32 mode a b c))) ∧
  (∀ (mode : BitVec 2) (s d : Nat) (sat : Bool) (w : Word), s < 8 → d < 8 → converted mode s d sat w (convert mode s d sat w)) ∧
  (∀ (f : BitVec 3) (w : Word), isNaN w = true → elementary f w = (0x7FC00000#32, if isSNaN w then 1#32 else 0#32)) ∧
  (∀ (w : Word) (x : ℚ), valueOf w = .real x → x ≠ 0 →
    let signed (a : Word) : Word := if x < 0 then a ||| 0x80000000#32 else a
    (¬ fmtFP32.beyondTop 0 x⁻¹ → NearestTo ((x : ℝ)⁻¹) (elementary 0 w)) ∧
    (fmtFP32.beyondTop 0 x⁻¹ → elementary 0 w = (signed 0x7F800000#32, 4#32)) ∧
    (0 < x → NearestTo ((Real.sqrt (x : ℝ))⁻¹) (elementary 1 w) ∧ NearestTo (Real.sqrt (x : ℝ)) (elementary 2 w)) ∧
    (x < 0 → ∀ f ∈ [1#3, 2#3, 4#3], elementary f w = (0x7FC00000#32, 1#32)) ∧
    (2 ^ 23 ≤ |x| → elementary 5 w = (signed 0#32, 0#32) ∧ elementary 6 w = (0x3F800000#32, 0#32))) ∧
  (∀ neg : Bool,
    let signed (a : Word) : Word := if neg then a ||| 0x80000000#32 else a
    let zero := signed 0#32
    let inf := signed 0x7F800000#32
    let invalid : Word × Word := (0x7FC00000#32, 1#32)
    elementary 0 zero = (inf, 2#32) ∧ elementary 1 zero = (inf, 2#32) ∧ elementary 2 zero = (zero, 0#32) ∧ elementary 3 zero = (0x3F800000#32, 0#32) ∧
      elementary 4 zero = (0xFF800000#32, 2#32) ∧ elementary 5 zero = (zero, 0#32) ∧ elementary 6 zero = (0x3F800000#32, 0#32) ∧
      elementary 7 zero = (zero, 0#32) ∧
    elementary 0 inf = (zero, 0#32) ∧ elementary 1 inf = (if neg then invalid else (0#32, 0#32)) ∧ elementary 2 inf = (if neg then invalid else (inf, 0#32)) ∧
      elementary 3 inf = (if neg then 0#32 else inf, 0#32) ∧ elementary 4 inf = (if neg then invalid else (inf, 0#32)) ∧ elementary 5 inf = invalid ∧
      elementary 6 inf = invalid ∧ elementary 7 inf = (signed 0x3F800000#32, 0#32)) ∧
  elementary 4 0x3F800000#32 = (0#32, 0#32)

/-! ### Cross-thread instructions (R31, R166 to R172) -/

namespace Sys2Proof.Claims

/-- First lane and number of lanes of the issuing wave: a legacy wave has 16 (R31). -/
def waveFrom (w : Warp) : Nat := if w.legacy then 16 * w.cur.val else 0
def waveLanes (w : Warp) : Nat := if w.legacy then 16 else 32

/-- Lane n of the vector register that a field names, active or not. -/
def laneAt (w : Warp) (a : Reg) (n : Nat) : Word := lane w a (Fin.ofNat 32 n)

/-- What lane t of `vshfl` receives (R167): from the source lane where that lies in the wave and is active, else its own. -/
def shuffled (w : Warp) (mode : BitVec 2) (a : Reg) (selector : Word) (t : Nat) : Word :=
  let base : Int := waveFrom w
  let r : Int := (t : Int) - base
  let k : Int := (selector.toNat % waveLanes w : Nat)
  let src : Int :=
    match mode.toNat with
    | 0 => k
    | 1 => ((r.toNat ^^^ k.toNat : Nat) : Int)
    | 2 => r - k
    | _ => r + k
  if 0 ≤ src ∧ src < waveLanes w ∧ w.frag.mask.getLsbD (base + src).toNat = true then laneAt w a (base + src).toNat else laneAt w a t

/-- Identity and operation of a reduction code (R169), with the flags of the operation. -/
def identity (c : BitVec 4) : Word :=
  match c.toNat with
  | 1 => 0x7FFFFFFF#32
  | 2 | 8 => 0x80000000#32
  | 3 | 5 => 0xFFFFFFFF#32
  | 9 | 10 => 0x7FC00000#32
  | _ => 0#32
def combine (c : BitVec 4) (x y : Word) : Word × Word :=
  match c.toNat with
  | 0 => (low32 (x.toNat + y.toNat), 0#32)
  | 1 => (lesser false x y, 0#32)
  | 2 => (greater false x y, 0#32)
  | 3 => (lesser true x y, 0#32)
  | 4 => (greater true x y, 0#32)
  | 5 => (wordOf fun i => x.getLsbD i && y.getLsbD i, 0#32)
  | 6 => (wordOf fun i => x.getLsbD i || y.getLsbD i, 0#32)
  | 7 => (wordOf fun i => x.getLsbD i != y.getLsbD i, 0#32)
  | 8 => addF32 0#2 x y
  | 9 => (floatPick false x y, if isSNaN x || isSNaN y then 1#32 else 0#32)
  | _ => (floatPick true x y, if isSNaN x || isSNaN y then 1#32 else 0#32)

/-- Lane j of the wave as a reduction takes it: the identity where inactive. -/
def taken (w : Warp) (c : BitVec 4) (a : Reg) (j : Nat) : Word :=
  if w.frag.mask.getLsbD (waveFrom w + j) then laneAt w a (waveFrom w + j) else identity c

/-- Node j at height n of the pairwise tree of R169, with the flags of the operations below it. -/
def treeNode (c : BitVec 4) (x : Nat → Word) : Nat → Nat → Word × Word
  | 0, j => (x j, 0#32)
  | n + 1, j =>
    let l := treeNode c x n (2 * j)
    let r := treeNode c x n (2 * j + 1)
    ((combine c l.1 r.1).1, l.2 ||| r.2 ||| (combine c l.1 r.1).2)

/-- Lane t after n steps of R170, and the flags of its n-th step. -/
def scanned (c : BitVec 4) (x : Nat → Word) : Nat → Nat → Word
  | 0, t => x t
  | n + 1, t => if 2 ^ n ≤ t then (combine c (scanned c x n (t - 2 ^ n)) (scanned c x n t)).1 else scanned c x n t
def scanFlags (c : BitVec 4) (x : Nat → Word) (n t : Nat) : Word :=
  if 2 ^ n ≤ t then (combine c (scanned c x n (t - 2 ^ n)) (scanned c x n t)).2 else 0#32

/-- Lane n as `vhadm` takes it under key g: +0 where inactive, its sign flipped where the key's bit is set. -/
def keyed (w : Warp) (a : Reg) (g : Word) (n : Nat) : Word :=
  let x := if w.frag.mask.getLsbD n then laneAt w a n else 0#32
  if g.getLsbD (n - waveFrom w) then x ^^^ 0x80000000#32 else x

/-- What `vgetid` gives lane n (R172): the thread's number in its warp, in its team, in its grid; a legacy wave counts 16 (R31). -/
def identityOf (s : State) (t : Team) (k n : Nat) : Nat :=
  let w := s.w
  let width := waveLanes w
  let inWarp := n % width
  let wave := if w.legacy then 2 * w.id.warp + w.cur.val else w.id.warp
  let waves := if w.legacy then 2 * t.warps else t.warps
  match k with
  | 0 => inWarp
  | 1 => wave * width + inWarp
  | _ => (w.id.team * waves + wave) * width + inWarp

/-- As `VectorResult`, with the flags of the whole instruction. -/
def VectorWhole (s t : State) (d : Reg) (v : Fin 32 → Word) (flags : Word) : Prop :=
  t = { s with w := { s.w with vectors := t.w.vectors, nflags := s.w.nflags ||| flags, slots := t.w.slots, loops := t.w.loops, logged := t.w.logged } } ∧
  Advanced s.w t.w ∧
  ∀ (r : Fin 256) (k : Fin 32), t.w.vectors[r][k] =
    if r = Fin.ofNat 256 (s.w.wbase + d.toNat) ∧ on s.w k = true then v k else s.w.vectors[r][k]

end Sys2Proof.Claims

/-- R167, R172: `vshfl` and `vgetid`, for native warps and legacy waves. -/
def Obligations.ShuffleAndIdentity : Prop :=
  ∀ (s : State),
    (∀ (u : BitVec 1) (m : BitVec 2) (d a b : Reg), s.precheck (.vshfl u m d a b) = none →
      (s.w.legacy = true → ∀ k : Fin 32, on s.w k = true → k.val / 16 = s.w.cur.val) →
      ∃ t, exec (.vshfl u m d a b) s = .next t ∧ VectorWhole s t d (fun k => shuffled s.w m a (second s.w u b k) k.val) 0#32) ∧
    ∀ (d : Reg) (k : BitVec 10) (t : Team), s.precheck (.vgetid d k) = none → s.team = some t →
      ∃ u, exec (.vgetid d k) s = .next u ∧ VectorWhole s u d (fun n => low32 (identityOf s t k.toNat n.val)) 0#32

/-- R168 to R171: `vvote` gives the ballot, any or all of a predicate over the active threads, `vred` the root of the pairwise tree with the
flags of its operations, `vscan` each active lane its inclusive prefix in the fixed order, `vhadm` each active lane a quarter of the keyed
butterfly network over its half (its flags are not stated); a legacy wave does so over its 16 lanes. -/
def Obligations.ReductionsAndScans : Prop :=
  (∀ (s : State),
      (∀ (d : Reg) (p : Pred) (m : BitVec 2), s.precheck (.vvote d p m) = none →
        let yes (k : Nat) : Bool := s.w.frag.mask.getLsbD (waveFrom s.w + k) && (s.w.readP p).getLsbD (waveFrom s.w + k)
        (s.w.legacy = true → ∀ k : Fin 32, on s.w k = true → k.val / 16 = s.w.cur.val) →
        ∃ t, exec (.vvote d p m) s = .next t ∧
          ScalarResult s t (one d (match m.toNat with
            | 0 => wordOf fun k => decide (k < waveLanes s.w) && yes k
            | 1 => truth ((List.range (waveLanes s.w)).any yes)
            | _ => truth ((List.range (waveLanes s.w)).all fun k => !s.w.frag.mask.getLsbD (waveFrom s.w + k) || yes k))) 0#32) ∧
      ∀ (d a : Reg) (c : BitVec 4), s.precheck (.vred d a c) = none →
        let r := treeNode c (taken s.w c a) (if s.w.legacy then 4 else 5) 0
        ∃ t, exec (.vred d a c) s = .next t ∧ ScalarResult s t (one d r.1) r.2) ∧
  ∀ (s : State) (d a : Reg), (s.w.legacy = true → ∀ k : Fin 32, on s.w k = true → k.val / 16 = s.w.cur.val) →
    (∀ c : BitVec 4, s.precheck (.vscan d a c) = none →
      let n := if s.w.legacy then 4 else 5
      let x := taken s.w c a
      let flags := (List.range n).foldl (fun f h => (List.range (waveLanes s.w)).foldl (fun f t => f ||| scanFlags c x h t) f) 0#32
      ∃ t, exec (.vscan d a c) s = .next t ∧ VectorWhole s t d (fun k => scanned c x n (k.val - waveFrom s.w)) flags) ∧
    ∀ g : Reg, s.precheck (.vhadm d a g) = none →
      ∃ t flags, exec (.vhadm d a g) s = .next t ∧
        VectorWhole s t d (fun k => (mulF32 0#2 (butterfly (fun j => keyed s.w a (s.w.readS g) (k.val / 16 * 16 + j)) 4 (k.val % 16)) 0x3E800000#32).1) flags

/-! ### Memory instructions (R191 to R211) -/

namespace Sys2Proof.Claims

/-- Lane k of the vector register with field value n. -/
def laneN (w : Warp) (n : Nat) (k : Fin 32) : Word := w.vectors[Fin.ofNat 256 (w.wbase + n)][k]

/-- Two lanes as one 64-bit number, the lower register low. -/
def laneN64 (w : Warp) (n : Nat) (k : Fin 32) : Nat := (laneN w (n + 1) k).toNat * 2 ^ 32 + (laneN w n k).toNat

/-- The active threads in ascending order. -/
def active (w : Warp) : List (Fin 32) := (List.finRange 32).filter (on w)

/-- A memory access of an instruction: size, first data register, the address or offset that R196 reports, the virtual address, and
whether the lane lies within the limits of its space. -/
structure Form where
  size : Nat
  data : Reg
  o : Fin 32 → Nat
  va : Fin 32 → Nat
  within : Fin 32 → Bool

/-- The offset operand (R112): a scalar, or the immediate times the size. -/
def offsetOf (w : Warp) (k : BitVec 1) (b : Reg) (size : Nat) : Nat := if k = 1#1 then b.toNat * size else (w.readS b).toNat

/-- Global addresses (R64, R193): the pair plus the offset, modulo 2^64, below 2^57. -/
def globalForm (w : Warp) (size : Nat) (k : BitVec 1) (d a b : Reg) : Form where
  size := size
  data := d
  o t := (laneN64 w a.toNat t + offsetOf w k b size) % 2 ^ 64
  va t := (laneN64 w a.toNat t + offsetOf w k b size) % 2 ^ 64
  within t := decide ((laneN64 w a.toNat t + offsetOf w k b size) % 2 ^ 64 < 2 ^ 57)

/-- Lexical addresses (R88, R203): past the 64-byte header of the frame at a level, within its class. -/
def lexicalForm (w : Warp) (size : Nat) (k : BitVec 1) (d a : Reg) (l : BitVec 4) (i : BitVec 3) : Form :=
  let o (t : Fin 32) : Nat := (if k = 1#1 then (w.readS a).toNat else (laneN w a.toNat t).toNat) + i.toNat * size
  let frame : Display := (w.display[l.toNat]?).getD ⟨0#64, 0⟩
  { size := size, data := d, o := o, va := fun t => (frame.base.toNat + 64 + o t) % 2 ^ 64
    within := fun t => decide (l.toNat ≤ w.level) && decide (l.toNat ≤ 9) && decide (o t + size + 64 ≤ frame.cls) }

/-- The bytes of a size field. -/
def bytesOf (z : BitVec 2) : Nat := if z = 0#2 then 4 else if z = 1#2 then 8 else 16

/-- Loads, with the way each finds its data (R74, R113). -/
def loadForm (w : Warp) : Instr → Option (Form × LoadKind)
  | .ldgB8 c k d a b => some (globalForm w 1 k d a b, if c = 1#2 then .bypass else if c = 2#2 then .evictFirst else .cached)
  | .ldgB16 c k d a b => some (globalForm w 2 k d a b, if c = 1#2 then .bypass else if c = 2#2 then .evictFirst else .cached)
  | .ldgB32 c k d a b => some (globalForm w 4 k d a b, if c = 1#2 then .bypass else if c = 2#2 then .evictFirst else .cached)
  | .ldgB64 c k d a b => some (globalForm w 8 k d a b, if c = 1#2 then .bypass else if c = 2#2 then .evictFirst else .cached)
  | .ldgB128 c k d a b => some (globalForm w 16 k d a b, if c = 1#2 then .bypass else if c = 2#2 then .evictFirst else .cached)
  | .ldx z k d a l i => some (lexicalForm w (bytesOf z) k d a l i, .cached)
  | _ => none

/-- Stores, and whether each is evict-first (R113). -/
def storeForm (w : Warp) : Instr → Option (Form × Bool)
  | .stgB8 c k d a b => some (globalForm w 1 k d a b, c == 2#2)
  | .stgB16 c k d a b => some (globalForm w 2 k d a b, c == 2#2)
  | .stgB32 c k d a b => some (globalForm w 4 k d a b, c == 2#2)
  | .stgB64 c k d a b => some (globalForm w 8 k d a b, c == 2#2)
  | .stgB128 c k d a b => some (globalForm w 16 k d a b, c == 2#2)
  | .stx z k d a l i => some (lexicalForm w (bytesOf z) k d a l i, false)
  | _ => none

/-- Operand and comparison value of a lane: one or two registers. -/
def operandN (w : Warp) (wide : Bool) (n : Nat) (k : Fin 32) : BitVec 64 := BitVec.ofNat 64 (if wide then laneN64 w n k else (laneN w n k).toNat)

/-- Global and lexical atomics: form, code, unsigned, binary32, irrevocable, first operand register (R204 to R209). -/
def atomicForm (w : Warp) : Instr → Option (Form × BitVec 3 × Bool × Bool × Bool × Nat)
  | .atomgI32 c d a b => some (globalForm w 4 1 d a 0, c, false, false, false, b.toNat)
  | .atomgN32 c d a b => some (globalForm w 4 1 d a 0, c, true, false, false, b.toNat)
  | .atomgF32 c d a b => some (globalForm w 4 1 d a 0, c, false, true, false, b.toNat)
  | .atomgI64 c d a b => some (globalForm w 8 1 d a 0, c, false, false, false, b.toNat)
  | .atomgN64 c d a b => some (globalForm w 8 1 d a 0, c, true, false, false, b.toNat)
  | .atomdI32 c d a b | .atomyI32 c d a b => some (globalForm w 4 1 d a 0, c, false, false, true, b.toNat)
  | .atomdI64 c d a b | .atomyI64 c d a b => some (globalForm w 8 1 d a 0, c, false, false, true, b.toNat)
  | .atomxI32 c d a l i => some (lexicalForm w 4 0 d a l i, c, false, false, false, d.toNat + if c = 7#3 then 1 else 0)
  | .atomxI64 c d a l i => some (lexicalForm w 8 0 d a l i, c, false, false, false, d.toNat + if c = 7#3 then 2 else 0)
  | _ => none

/-- Every active lane passes the checks of R196, and its address translates to the home given. -/
def Admitted (s : State) (a : Access) (f : Form) (ha : Fin 32 → Nat) : Prop :=
  ∀ k : Fin 32, on s.w k = true → f.o k % f.size = 0 ∧ f.within k = true ∧
    s.translate (.core s.w.core) s.w.id.ctx a s.w.super (f.va k) = .ok (ha k)

/-- The requests of the active lanes. -/
def requestsOf (s : State) (f : Form) (ha : Fin 32 → Nat) : List LaneReq := (active s.w).map fun k => ⟨k.val, f.va k, ha k, 0, f.size⟩

/-- The requests that the active lanes take (R194): one for each sector. -/
def requestCount (s : State) (ha : Fin 32 → Nat) : Nat := (((active s.w).map fun k => ha k / 64 * 64).eraseDups).length

/-- Some active lane finds no sector in the core's L1 (R22). -/
def missesL1 (s : State) (ha : Fin 32 → Nat) : Bool := (active s.w).any fun k => (s.l1Sector s.w.core s.w.id.ctx (ha k)).isNone

/-- The loads and atomics of the warp that are outstanding, without the words a `ret` waits for, are fewer than 63 (R194). -/
def LoadRoom (s : State) : Prop := (s.w.loads.filter fun x => x.kind != .returnWords).length < 63

/-- Byte j of the data that lane k stores. -/
def storedByte (w : Warp) (d : Reg) (k : Fin 32) (j : Nat) : Byte := BitVec.ofNat 8 ((laneN w (d.toNat + j / 4) k).toNat / 2 ^ (8 * (j % 4)))

/-- The bytes that lane k stores. -/
def storedBytes (w : Warp) (f : Form) (k : Fin 32) : List Byte := (List.range f.size).map (storedByte w f.data k)

/-- No vector register that the instruction names is leased (R210). -/
def Unleased (s : State) (i : Instr) : Prop :=
  ∀ l ∈ s.w.leases, ∀ p ∈ vectorFields i, l.1 < s.w.wbase + p.1 ∨ s.w.wbase + p.1 + p.2 ≤ l.1

end Sys2Proof.Claims

/-- R113, R192 to R194, R200, R203: a load whose lanes pass the checks enters the outstanding loads
with the home address of every lane; the fragment continues; nothing changes but the translations
used (R68). That an access takes place at its issue or at its return, as said here, is the model's
reading (log 22). -/
def Obligations.LoadsIssue : Prop :=
  ∀ (i : Instr) (s : State) (f : Form) (kind : LoadKind) (ha : Fin 32 → Nat), loadForm s.w i = some (f, kind) → s.precheck i = none →
    Unleased s i → Admitted s .load f ha → LoadRoom s → s.requests s.w.core < 2048 →
    ∃ t v, exec i s = .next t ∧ Advanced s.w v ∧
      v = { s.w with slots := v.slots, loops := v.loops
                     loads := s.w.loads ++ [⟨s.nextId, s.w.frag.pc, f.size, s.w.wbase + f.data.toNat, requestsOf s f ha, kind, none, 0#32,
                       requestCount s ha, missesL1 s ha, none, s.clock, []⟩] } ∧
      t = { s.touchLanes ((active s.w).map fun k => (k.val, f.va k)) false with nextId := s.nextId + 1, w := v }

/-- R192 to R194, R200, R203, R209: a store whose lanes pass the checks enters the core's pending
stores with the bytes of every lane; memory and the core's L1 keep theirs until the store is
performed. That an access takes place at its issue or at its
return, as said here, is the model's reading (log 22). -/
def Obligations.StoresIssue : Prop :=
  ∀ (i : Instr) (s : State) (f : Form) (ef : Bool) (ha : Fin 32 → Nat), storeForm s.w i = some (f, ef) → s.precheck i = none →
    Unleased s i → Admitted s .store f ha → s.outStores s.w < 63 → s.requests s.w.core < 2048 → s.w.pendingOn (requestsOf s f ha) = none →
    let data := (active s.w).map fun k => ((⟨k.val, f.va k, ha k, 0, f.size⟩ : LaneReq), storedBytes s.w f k)
    let far := (active s.w).any fun k => decide (2 ^ 52 ≤ ha k)
    let u := s.touchLanes ((active s.w).map fun k => (k.val, f.va k)) true
    ∃ t v, exec i s = .next t ∧ Advanced s.w v ∧
      v = { s.w with slots := v.slots, loops := v.loops, awaitCheckpoint := s.w.awaitCheckpoint || far } ∧
      t = { u with
        nextId := s.nextId + 1, w := v
        stores := s.stores ++ [⟨s.nextId, s.w.id, s.w.core, s.w.frag.pc, data, false, far, ef, requestCount s ha, [], s.clock⟩] }

/-- R204 to R206, R209: an atomic whose lanes pass the checks enters the outstanding loads with each
lane's operand and comparison value. That an access takes place at its issue or at its return, as
said here, is the model's reading (log 22). -/
def Obligations.AtomicsIssue : Prop :=
  ∀ (i : Instr) (s : State) (f : Form) (c : BitVec 3) (un fl irr : Bool) (n : Nat) (ha : Fin 32 → Nat),
    atomicForm s.w i = some (f, c, un, fl, irr, n) → s.precheck i = none → Unleased s i → Admitted s .atomic f ha →
    LoadRoom s → s.outStores s.w < 63 → s.requests s.w.core < 2048 → s.w.pendingOn (requestsOf s f ha) = none →
    let far := irr || (active s.w).any fun k => decide (2 ^ 52 ≤ ha k)
    let wide := decide (f.size = 8)
    let operands := (active s.w).map fun k => (operandN s.w wide n k, operandN s.w wide f.data.toNat k)
    ∃ t v, exec i s = .next t ∧ Advanced s.w v ∧
      v = { s.w with
        slots := v.slots, loops := v.loops, awaitCheckpoint := s.w.awaitCheckpoint || far
        loads := s.w.loads ++ [⟨s.nextId, s.w.frag.pc, f.size, s.w.wbase + f.data.toNat, requestsOf s f ha, .atomic c.toNat un fl far operands,
          none, 0#32, requestCount s ha, missesL1 s ha, none, s.clock, []⟩] } ∧
      t = { s.touchLanes ((active s.w).map fun k => (k.val, f.va k)) true with nextId := s.nextId + 1, w := v }

namespace Sys2Proof.Claims

/-- Offsets of scratchpad and private accesses. -/
def offsetForm (w : Warp) (size : Nat) (k : BitVec 1) (d a b : Reg) : Form where
  size := size
  data := d
  o t := (laneN w a.toNat t).toNat + offsetOf w k b size
  va t := (laneN w a.toNat t).toNat + offsetOf w k b size
  within _ := true

/-- Every memory instruction: its form, and whether it writes. -/
def anyForm (w : Warp) : Instr → Option (Form × Bool)
  | .lds z k d a b | .ldp z k d a b => some (offsetForm w (bytesOf z) k d a b, false)
  | .sts z k d a b | .stp z k d a b => some (offsetForm w (bytesOf z) k d a b, true)
  | .atomsI32 _ d a _ | .atomsN32 _ d a _ | .atomsF32 _ d a _ => some (offsetForm w 4 1 d a 0, true)
  | i => match loadForm w i, storeForm w i, atomicForm w i with
    | some (f, _), _, _ => some (f, false)
    | _, some (f, _), _ => some (f, true)
    | _, _, some (f, _) => some (f, true)
    | _, _, _ => none

/-- The mask of the active lanes with a property. -/
def lanesWith (w : Warp) (p : Fin 32 → Bool) : Mask := wordOf fun n => decide (n < 32) && on w (Fin.ofNat 32 n) && p (Fin.ofNat 32 n)

/-- Word i of the register group that a private access of lane k moves (R87, R202): its virtual address. -/
def privateVa (w : Warp) (k : Fin 32) (o i : Nat) : Nat := w.privBase + ((o + 4 * i) / 4 * 32 + k.val) * 4

/-- The limits of an access's space (R88, R196, orders 3 and 4): code, and the lanes that lie beyond. -/
def limitsOf (s : State) (t : Team) (f : Form) : Instr → List (Code × (Fin 32 → Bool))
  | .lds .. | .sts .. | .atomsI32 .. | .atomsN32 .. | .atomsF32 .. => [(0x0B, fun k => decide (t.spadsz < f.o k + f.size))]
  | .ldp .. | .stp .. => [(0x0C, fun k => decide (s.w.privsz < f.o k + f.size))]
  | .ldx _ _ _ _ l _ | .stx _ _ _ _ l _ | .atomxI32 _ _ _ l _ | .atomxI64 _ _ _ l _ =>
    [(0x0E, fun _ => decide (s.w.level < l.toNat) || decide (9 < l.toNat)),
     (0x0D, fun k => decide (((s.w.display[l.toNat]?).getD ⟨0#64, 0⟩).cls < f.o k + f.size + 64))]
  | _ => [(0x09, fun k => decide (2 ^ 57 ≤ f.va k))]

/-- Orders 1 to 4 of R196: code, and the lanes that meet the condition. A register is leased as in `Unleased`. -/
def laneChecks (s : State) (t : Team) (i : Instr) (f : Form) : List (Code × (Fin 32 → Bool)) :=
  let leased := s.w.leases.any fun l => (vectorFields i).any fun p => decide (s.w.wbase + p.1 ≤ l.1) && decide (l.1 < s.w.wbase + p.1 + p.2)
  (0x06, fun _ => leased) :: (0x07, fun k => decide (f.o k % f.size ≠ 0)) :: limitsOf s t f i

/-- The virtual addresses that lane k's access translates: none for a scratchpad, one for each word of a private access. -/
def wordsOf (w : Warp) (i : Instr) (f : Form) (k : Fin 32) : List Nat :=
  match i with
  | .lds .. | .sts .. | .atomsI32 .. | .atomsN32 .. | .atomsF32 .. => []
  | .ldp .. | .stp .. => (List.range (f.size / 4)).map (privateVa w k (f.o k))
  | _ => [f.va k]

/-- The access as its translation sees it (R66). -/
def accessOf (w : Warp) (i : Instr) : Access :=
  if (atomicForm w i).isSome then .atomic else if ((anyForm w i).map (·.2)).getD false then .store else .load

end Sys2Proof.Claims

/-- R63, R64, R66, R88, R196, R201: the checks of a memory instruction before any lane is performed. The first condition of R196 that some active
lane meets is raised, in the lanes that meet it, with the address of the lowest-numbered of them, and the instruction has no effect in any lane:
0x06 for a leased register, 0x07 for a misaligned address or offset, 0x0E for a lexical level, then the limit of the space (0x09, 0x0B, 0x0C, 0x0D),
then 0x09 and last 0x08 of the translation, with the virtual address that did not translate. That an instruction which fails a check faults
although a counter of R194 stands at its limit is the model's choice (log 64). -/
def Obligations.AccessChecks : Prop :=
  ∀ (i : Instr) (s : State) (f : Form) (write : Bool) (t : Team), anyForm s.w i = some (f, write) → s.precheck i = none → s.team = some t →
    (∀ (before after : List (Code × (Fin 32 → Bool))) (c : Code) (p : Fin 32 → Bool) (k : Fin 32), laneChecks s t i f = before ++ (c, p) :: after →
      (∀ q ∈ before, ∀ j, on s.w j = true → q.2 j = false) → on s.w k = true → p k = true → (∀ j < k, on s.w j = true → p j = false) →
      exec i s = .next (s.raise { code := c, mask := lanesWith s.w p, va := f.o k, write := write })) ∧
    ((∀ q ∈ laneChecks s t i f, ∀ j, on s.w j = true → q.2 j = false) →
      let meets (c : Code) (va : Nat) : Bool := decide (s.translate (.core s.w.core) s.w.id.ctx (accessOf s.w i) s.w.super va = .error c)
      ∀ (c : Code) (k : Fin 32) (va : Nat), c = 0x09#8 ∨ c = 0x08#8 ∧ (∀ j, on s.w j = true → ∀ x ∈ wordsOf s.w i f j, meets 0x09#8 x = false) →
        on s.w k = true → (wordsOf s.w i f k).find? (meets c) = some va →
        (∀ j < k, on s.w j = true → ∀ x ∈ wordsOf s.w i f j, meets c x = false) →
        exec i s = .next (s.raise { code := c, mask := lanesWith s.w fun j => (wordsOf s.w i f j).any (meets c), va := va, write := write }))

namespace Sys2Proof.Claims

/-- The byte of a team's scratchpad at an offset. -/
def spadByte (t : Team) (o : Nat) : Byte := ((t.page (o / 2048)).bytes[o % 2048]?).getD 0#8

/-- A number of bytes of the scratchpad. -/
def spadNumber (t : Team) (o n : Nat) : Nat := (List.range n).foldl (fun v j => v + (spadByte t (o + j)).toNat * 256 ^ j) 0

/-- Every active lane's access is aligned, within the allocation, and to a resident page; no sector is marked, no copy writes the range. -/
def SpadReady (s : State) (t : Team) (f : Form) : Prop :=
  s.team = some t ∧ (∀ p ∈ t.pages, p.marks = []) ∧ s.tracked f.size ((active s.w).map fun k => (k.val, f.o k)) = false ∧
    ∀ k : Fin 32, on s.w k = true → f.o k % f.size = 0 ∧ f.o k + f.size ≤ t.spadsz ∧ (t.page (f.o k / 2048)).st = .resident ∧
      (t.page (f.o k / 2048)).bytes.length = 2048

/-- The last active lane whose access covers an offset (R198: later lanes over earlier ones). -/
def lastLane (w : Warp) (f : Form) (o : Nat) : Option (Fin 32) := ((active w).filter fun k => decide (f.o k ≤ o) && decide (o < f.o k + f.size)).getLast?

/-- The requests that a scratchpad access takes (R194): its sectors. -/
def spadCount (w : Warp) (f : Form) : Nat := (((active w).map fun k => f.o k / 64).eraseDups).length

/-- Pages that the active lanes touch. -/
def pagesTouched (w : Warp) (f : Form) : List Nat := (active w).map fun k => f.o k / 2048

/-- Lanes in ascending order at words that later lanes find as earlier ones leave them: the words after, and what each lane found. -/
def chain (va : Fin 32 → Nat) (new : Fin 32 → Nat → Nat) : List (Fin 32) → (Nat → Nat) → (Nat → Nat) × List (Fin 32 × Nat)
  | [], f => (f, [])
  | k :: rest, f =>
    let r := chain va new rest fun o => if o = va k then new k (f o) else f o
    (r.1, (k, f (va k)) :: r.2)

/-- What an atomic leaves in an n-bit location, as numbers, and the flags (R111, R205, R207). -/
def atomicNew (c : BitVec 3) (un fl : Bool) (n old x cmp : Nat) : Nat × Word :=
  let signed (v : Nat) : Int := if v < 2 ^ (n - 1) then v else (v : Int) - 2 ^ n
  let less := if un then decide (old < x) else decide (signed old < signed x)
  let bits (f : Bool → Bool → Bool) : Nat := (List.range n).foldl (fun v i => if f (old.testBit i) (x.testBit i) then v + 2 ^ i else v) 0
  match c.toNat with
  | 0 => if fl then ((addF32 0#2 (low32 old) (low32 x)).1.toNat, (addF32 0#2 (low32 old) (low32 x)).2) else ((old + x) % 2 ^ n, 0#32)
  | 1 => if fl then ((floatPick false (low32 old) (low32 x)).toNat, if isSNaN (low32 old) || isSNaN (low32 x) then 1#32 else 0#32)
      else (if less then old else x, 0#32)
  | 2 => if fl then ((floatPick true (low32 old) (low32 x)).toNat, if isSNaN (low32 old) || isSNaN (low32 x) then 1#32 else 0#32)
      else (if less then x else old, 0#32)
  | 3 => (bits fun a b => a && b, 0#32)
  | 4 => (bits fun a b => a || b, 0#32)
  | 5 => (bits fun a b => a != b, 0#32)
  | 6 => (x, 0#32)
  | _ => (if old = cmp then x else old, 0#32)

/-- The scratchpad atomics: form, code, unsigned, binary32, operand register. -/
def spadAtomicForm (w : Warp) : Instr → Option (Form × BitVec 3 × Bool × Bool × Nat)
  | .atomsI32 c d a b => some (offsetForm w 4 1 d a 0, c, false, false, b.toNat)
  | .atomsN32 c d a b => some (offsetForm w 4 1 d a 0, c, true, false, b.toNat)
  | .atomsF32 c d a b => some (offsetForm w 4 1 d a 0, c, false, true, b.toNat)
  | _ => none

/-- The team's entry is replaced. -/
def withTeam (s : State) (t : Team) : List Team := s.teams.map fun x => if x.id = t.id then t else x

end Sys2Proof.Claims

/-- R82, R198, R201, R205, R207, R281: scratchpad loads and stores whose pages are resident are
performed when they issue: a load takes its bytes, a store leaves in each byte what the last lane
stored there and every other byte as it was; memory is not touched. Scratchpad atomics act in
ascending thread order, each lane on what the ones before it left; each lane receives the old
value, and the flags come with the data. That an access takes place at its issue or at its return,
as said here, is the model's reading (log 22). -/
def Obligations.ScratchpadAccesses : Prop :=
  (∀ (s : State) (t : Team) (z : BitVec 2) (k : BitVec 1) (d a b : Reg),
      let f := offsetForm s.w (bytesOf z) k d a b
      SpadReady s t f → s.requests s.w.core < 2048 →
      (s.precheck (.lds z k d a b) = none → Unleased s (.lds z k d a b) → LoadRoom s →
        let data := (active s.w).map fun l => (l.val, BitVec.ofNat 128 (spadNumber t (f.o l) f.size))
        ∃ u v, exec (.lds z k d a b) s = .next u ∧ Advanced s.w v ∧
          v = { s.w with
            slots := v.slots, loops := v.loops, replay := s.w.replay.set s.w.cur []
            loads := s.w.loads ++ [⟨s.nextId + 1, s.w.frag.pc, f.size, s.w.wbase + d.toNat, [], .cached, some data, 0#32, spadCount s.w f, false,
              none, s.clock, []⟩] } ∧
          u = { s with nextId := s.nextId + 2, w := v, teams := withTeam s (t.spadUse (pagesTouched s.w f) s.nextId) }) ∧
      (s.precheck (.sts z k d a b) = none → Unleased s (.sts z k d a b) → s.outStores s.w < 63 →
        ∃ u v t', exec (.sts z k d a b) s = .next u ∧ Advanced s.w v ∧ t'.id = t.id ∧
          v = { s.w with slots := v.slots, loops := v.loops, replay := s.w.replay.set s.w.cur [] } ∧
          u = { s with
            nextId := s.nextId + 2, w := v, teams := withTeam s t'
            stores := s.stores ++ [⟨s.nextId + 1, s.w.id, s.w.core, s.w.frag.pc, [], false, false, false, spadCount s.w f, [], s.clock⟩] } ∧
          ∀ o, spadByte t' o = match lastLane s.w f o with | some l => storedByte s.w d l (o - f.o l) | none => spadByte t o)) ∧
  ∀ (i : Instr) (s : State) (t : Team) (f : Form) (c : BitVec 3) (un fl : Bool) (n : Nat), spadAtomicForm s.w i = some (f, c, un, fl, n) →
    SpadReady s t f → s.precheck i = none → Unleased s i → LoadRoom s → s.outStores s.w < 63 → s.requests s.w.core < 2048 →
    let new (k : Fin 32) (old : Nat) : Nat × Word := atomicNew c un fl 32 old (laneN s.w n k).toNat (laneN s.w f.data.toNat k).toNat
    let r := chain f.o (fun k old => (new k old).1) (active s.w) fun o => spadNumber t o 4
    ∃ u v t', exec i s = .next u ∧ Advanced s.w v ∧ t'.id = t.id ∧
      v = { s.w with
        slots := v.slots, loops := v.loops, replay := s.w.replay.set s.w.cur []
        loads := s.w.loads ++ [⟨s.nextId + 1, s.w.frag.pc, 4, s.w.wbase + f.data.toNat, [], .atomic c.toNat un fl false [],
          some (r.2.map fun p => (p.1.val, BitVec.ofNat 128 p.2)), r.2.foldl (fun g p => g ||| (new p.1 p.2).2) 0#32, spadCount s.w f, false,
          none, s.clock, []⟩] } ∧
      u = { s with nextId := s.nextId + 2, w := v, teams := withTeam s t' } ∧
      ∀ o, o % 4 = 0 → spadNumber t' o 4 = r.1 o

namespace Sys2Proof.Claims

/-- The sector of a home address stands in the core's L1, or is a sector of the context's own memory that nothing keeps from being filled. -/
def SectorAt (s : State) (ha : Nat) : Prop :=
  (∃ x, s.l1Sector s.w.core s.w.id.ctx ha = some x ∧ x.bytes.length = 64 ∧ x.ha = ha / 64 * 64) ∨
    (s.l1Sector s.w.core s.w.id.ctx ha = none ∧ s.owns s.w.id.ctx ha = true ∧ s.mark (ha / 64 * 64) = none ∧ s.ownedFor [] ha = false)

/-- The core's L1 has room for those of these sectors that it does not hold (R6). -/
def L1Room (s : State) (l : List Nat) : Prop :=
  let n := (l.filter fun a => (s.l1Sector s.w.core s.w.id.ctx a).isNone).length
  n = 0 ∨ (s.l1.filter fun x => x.core == s.w.core).length + n ≤ 1536

/-- The byte that a core's L1 holds at a home address under a context's tag. -/
def heldByte (s : State) (core : CoreId) (ctx a : Nat) : Option Byte := (s.l1Sector core ctx a).bind fun x => x.bytes[a - x.ha]?

/-- The byte that a load of a warp sees: in the core's L1 unless it bypasses, else at its home (R74). -/
def seenByte (s : State) (core : CoreId) (ctx : Nat) (bypass : Bool) (ha : Nat) : Byte :=
  match (if bypass then none else s.l1Sector core ctx ha) with
  | some x => (x.bytes[ha - x.ha]?).getD 0#8
  | none => s.mem.read ha

/-- The number that the warp's core sees in n bytes at a home address. -/
def seenNumber (s : State) (ha n : Nat) : Nat :=
  (List.range n).foldl (fun v j => v + (seenByte s s.w.core s.w.id.ctx false (ha + j)).toNat * 256 ^ j) 0

/-- `u` is `s` after accesses through the private path to these sectors, with the rest as in `b`: only L1 and L2 have changed, and every byte
of every core's L1 but the ones written (`put`) is as it was seen before; the sectors used stand in the core's L1. -/
def PathUsed (s b u : State) (sectors : List Nat) (put : Nat → Bool) : Prop :=
  u = { b with l1 := u.l1, l2 := u.l2, marks := u.marks, freeIx := u.freeIx, sluice := { s.sluice with evictionFailures := u.sluice.evictionFailures } } ∧
  ((∀ a ∈ sectors, (s.l1Sector s.w.core s.w.id.ctx a).isSome) → u.l2 = s.l2 ∧ u.marks = s.marks ∧ u.freeIx = s.freeIx) ∧
  (∀ a, a / 64 * 64 ∈ sectors → put a = false →
    heldByte u s.w.core s.w.id.ctx a = some (seenByte s s.w.core s.w.id.ctx false a)) ∧
  ∀ c x a, c ≠ s.w.core ∨ x ≠ s.w.id.ctx ∨ a / 64 * 64 ∉ sectors → heldByte u c x a = heldByte s c x a

/-- The private words of the active lanes are aligned, below privsz, and can be used (`SectorAt`) under a translation that is cached, with the
dirty bit set where the access writes. -/
def PrivateReady (s : State) (f : Form) (a : Access) (write : Bool) (ha : Fin 32 → Nat → Nat) : Prop :=
  ∀ k : Fin 32, on s.w k = true → f.o k % f.size = 0 ∧ f.o k + f.size ≤ s.w.privsz ∧
    ∀ i < f.size / 4, s.translate (.core s.w.core) s.w.id.ctx a s.w.super (privateVa s.w k (f.o k) i) = .ok (ha k i) ∧ ha k i < 2 ^ 52 ∧
      ha k i % 64 ≤ 60 ∧
      (∃ e, s.cached (.core s.w.core) s.w.id.ctx (privateVa s.w k (f.o k) i) = some e ∧ (write = true → e.pte.getLsbD 5 = true)) ∧
      SectorAt s (ha k i)

/-- The sectors of the private words of the active lanes. -/
def privateSectors (s : State) (f : Form) (ha : Fin 32 → Nat → Nat) : List Nat :=
  ((active s.w).flatMap fun k => (List.range (f.size / 4)).map fun i => ha k i / 64 * 64).eraseDups

/-- Nothing that the warp or its core has under way concerns the n bytes from a home address (R199, R281): no pending store of the core in the
context to their sector, and no pending load or atomic of the warp on them that the access is ordered after. -/
def QuietAt (s : State) (write : Bool) (ha n : Nat) : Prop :=
  (∀ p ∈ s.stores, p.core = s.w.core → p.warp.ctx = s.w.id.ctx → ∀ l ∈ p.lanes, l.1.ha / 64 ≠ ha / 64) ∧
  ∀ x ∈ s.w.loads, x.data = none → (write = true ∨ x.kind ≠ .bypass) → ∀ r ∈ x.lanes, r.ha + r.len ≤ ha ∨ ha + n ≤ r.ha

/-- It concerns none of the private words. -/
def PrivateQuiet (s : State) (f : Form) (write : Bool) (ha : Fin 32 → Nat → Nat) : Prop :=
  ∀ k : Fin 32, on s.w k = true → ∀ i < f.size / 4, QuietAt s write (ha k i) 4

/-- The four bytes that the core's L1 holds at a home address, as a number. -/
def heldWord (s : State) (ha : Nat) : Nat :=
  match s.l1Sector s.w.core s.w.id.ctx ha with
  | some x => (List.range 4).foldl (fun v j => v + ((x.bytes[ha % 64 + j]?).getD 0#8).toNat * 256 ^ j) 0
  | none => 0

end Sys2Proof.Claims

/-- R74, R87, R202: private loads and stores whose words wait for nothing under way: a word's sector
stands in the core's L1, or is filled there from its home; a load takes the words, a store changes
them in L1, whose sectors become dirty, and not in memory; no other byte of any core's L1 changes.
That a miss takes its whole sector is the model's reading (log 60), and so is that an access takes
place at its issue or at its return, as said here (log 22). -/
def Obligations.PrivateAccesses : Prop :=
  ∀ (s : State) (z : BitVec 2) (k : BitVec 1) (d a b : Reg) (ha : Fin 32 → Nat → Nat),
    let f := offsetForm s.w (bytesOf z) k d a b
    s.requests s.w.core < 2048 →
    L1Room s (privateSectors s f ha) →
    (s.precheck (.ldp z k d a b) = none → Unleased s (.ldp z k d a b) → PrivateReady s f .load false ha → PrivateQuiet s f false ha → LoadRoom s →
      let data := (active s.w).map fun l =>
        (l.val, BitVec.ofNat 128 ((List.range (f.size / 4)).foldl (fun v i => v + seenNumber s (ha l i) 4 * 2 ^ (32 * i)) 0))
      ∃ u v, exec (.ldp z k d a b) s = .next u ∧ Advanced s.w v ∧
        v = { s.w with
          slots := v.slots, loops := v.loops
          loads := s.w.loads ++ [⟨s.nextId, s.w.frag.pc, f.size, s.w.wbase + d.toNat, [], .cached, some data, 0#32,
            (privateSectors s f ha).length, (privateSectors s f ha).any fun x => (s.l1Sector s.w.core s.w.id.ctx x).isNone, none, s.clock, []⟩] } ∧
        PathUsed s { s with nextId := s.nextId + 1, w := v } u (privateSectors s f ha) fun _ => false) ∧
    (s.precheck (.stp z k d a b) = none → Unleased s (.stp z k d a b) → PrivateReady s f .store true ha → PrivateQuiet s f true ha → s.outStores s.w < 63 →
      (∀ l m : Fin 32, ∀ i < f.size / 4, ∀ j < f.size / 4, on s.w l = true → on s.w m = true →
        ha l i = ha m j → privateVa s.w l (f.o l) i = privateVa s.w m (f.o m) j) →
      (∀ l m : Fin 32, ∀ i < f.size / 4, ∀ j < f.size / 4, on s.w l = true → on s.w m = true →
        (ha l i / 64 = ha m j / 64 ↔ privateVa s.w l (f.o l) i / 64 = privateVa s.w m (f.o m) j / 64)) →
      (∀ l : Fin 32, ∀ i < f.size / 4, on s.w l = true → ha l i % 64 = privateVa s.w l (f.o l) i % 64) →
      ∃ u v, exec (.stp z k d a b) s = .next u ∧ Completed s v ∧
        PathUsed s { s with
          nextId := s.nextId + 1, w := v
          stores := s.stores ++ [⟨s.nextId, s.w.id, s.w.core, s.w.frag.pc, [], false, false, false, (privateSectors s f ha).length, [], s.clock⟩] } u
          (privateSectors s f ha) (fun x => (active s.w).any fun l => (List.range (f.size / 4)).any fun i => decide (ha l i ≤ x) && decide (x < ha l i + 4)) ∧
        ∀ l : Fin 32, on s.w l = true → ∀ i < f.size / 4, heldWord u (ha l i) = (laneN s.w (d.toNat + i) l).toNat ∧
          (u.l1Sector s.w.core s.w.id.ctx (ha l i)).any (fun x => x.dirty && x.priv) = true)

namespace Sys2Proof.Claims

/-- The load x of warp w, numbered n, can return: no earlier access of the warp holds it, no engine owns its lines, every link is up, and
no pending store of the core in the context to its sectors goes before it. -/
def CanReturn (s : State) (id : WarpId) (n : Nat) (w : Warp) (x : Load) : Prop :=
  s.warp? id = some w ∧ w.loads.find? (fun y => y.id == n) = some x ∧ x.data = none ∧ s.loadBlocked w x = false ∧
    ∀ p ∈ s.stores, p.core = w.core → p.warp.ctx = id.ctx → ∀ l ∈ p.lanes, ∀ r ∈ x.lanes, l.1.ha / 64 ≠ r.ha / 64

/-- The warp after a load returned these bytes: byte j of lane k's data goes to byte j mod 4 of register j / 4 of the group; the load is gone. -/
def Returned (w v : Warp) (n : Nat) (x : Load) (ks : List (Fin 32)) (byte : Fin 32 → Nat → Byte) (flags : Word) : Prop :=
  v = { w with vectors := v.vectors, nflags := w.nflags ||| flags, loads := w.loads.filter (fun y => y.id != n), logged := v.logged } ∧
  ∀ (r : Fin 256) (k : Fin 32), v.vectors[r][k] =
    match (List.range ((x.size + 3) / 4)).find? fun i => Fin.ofNat 256 (x.dest + i) == r with
    | some i => if k ∈ ks then BitVec.ofNat 32 ((List.range 4).foldl (fun z j => if 4 * i + j < x.size then z + (byte k (4 * i + j)).toNat * 256 ^ j else z) 0)
        else w.vectors[r][k]
    | none => w.vectors[r][k]

end Sys2Proof.Claims

/-- R74, R192, R194: a load returns the bytes that its core's L1 holds, or those at their homes, zero-
extended into its registers; memory does not change but where a dirty private sector leaves a full
L1. That a load through L1 takes its whole sector is the model's reading (log 60), and so is that
an access takes place at its issue or at its return, as said here (log 22). -/
def Obligations.LoadReturns : Prop :=
  ∀ (s : State) (id : WarpId) (n : Nat) (w : Warp) (x : Load) (ks : List (Fin 32)) (va ha : Fin 32 → Nat),
    CanReturn s id n w x → (x.kind = .cached ∨ x.kind = .bypass ∨ x.kind = .evictFirst) → ks.Nodup → s.mem.wf = true →
    (x.kind = .bypass → ∀ y ∈ s.l1, y.core = w.core → y.ctx = id.ctx → y.dirty = true → ∀ r ∈ x.lanes, y.ha ≠ r.ha / 64 * 64) →
    x.lanes = ks.map (fun k => ⟨k.val, va k, ha k, 0, x.size⟩) → 0 < x.size → x.size ≤ 16 →
    (∀ k ∈ ks, ha k % 64 + x.size ≤ 64 ∧
      (if x.kind = .bypass then s.sectorCode id.ctx (ha k) x.size = 0#8
       else (s.l1Sector w.core id.ctx (ha k)).isSome ∨ s.sectorCode id.ctx (ha k / 64 * 64) 64 = 0#8)) →
    ∃ t v, exec (.loadDataReturn id n) s = .next t ∧ t.warp? id = some v ∧
      (∀ a, (∀ y ∈ s.l1, y.dirty = true → a < y.ha ∨ y.ha + y.bytes.length ≤ a) → t.mem.read a = s.mem.read a) ∧
      Returned w v n x ks (fun k j => seenByte s w.core id.ctx (decide (x.kind = .bypass)) (ha k + j)) 0#32

/-- R198, R205, R207, R208: an atomic on device memory is performed when it returns, lane by lane in
ascending order, each on what the ones before it left at the home; each lane receives the old
value, and every other aligned word of memory stays (where no unit has written its bytes since its
bank accepted it). That an access takes place at its issue or at
its return, as said here, is the model's reading (log 22). -/
def Obligations.AtomicReturns : Prop :=
  ∀ (s : State) (id : WarpId) (n : Nat) (w : Warp) (x : Load) (ks : List (Fin 32)) (va ha : Fin 32 → Nat) (c : BitVec 3) (un fl irr : Bool)
    (operands : Fin 32 → BitVec 64 × BitVec 64),
    CanReturn s id n w x → x.kind = .atomic c.toNat un fl irr (ks.map operands) → ks.Nodup → s.mem.wf = true →
    x.lanes = ks.map (fun k => ⟨k.val, va k, ha k, 0, x.size⟩) → (x.size = 4 ∨ x.size = 8 ∧ fl = false) →
    (∀ k ∈ ks, ha k % x.size = 0 ∧ s.owns id.ctx (ha k) = true ∧ s.sectorCode id.ctx (ha k) x.size = 0#8 ∧
      (operands k).1.toNat < 2 ^ (8 * x.size) ∧ (operands k).2.toNat < 2 ^ (8 * x.size)) →
    (∀ y ∈ s.l1, y.dirty = false) → x.later = [] →
    let new (k : Fin 32) (old : Nat) : Nat × Word := atomicNew c un fl (8 * x.size) old (operands k).1.toNat (operands k).2.toNat
    let r := chain ha (fun k old => (new k old).1) ks fun a => s.mem.readNat a x.size
    ∃ t v, exec (.loadDataReturn id n) s = .next t ∧ t.warp? id = some v ∧
      (∀ a, a % x.size = 0 → t.mem.readNat a x.size = r.1 a) ∧
      ∃ await, Returned { w with awaitCheckpoint := await } v n x ks
        (fun k j => BitVec.ofNat 8 ((((r.2.find? fun p => p.1 == k).map (·.2)).getD 0) / 256 ^ j))
        (r.2.foldl (fun g p => g ||| (new p.1 p.2).2) 0#32)

/-- R74, R194, R198, R280: a store that is its core's only pending one in the context, and that no engine's
line holds back, is performed when it is acknowledged: each byte holds what the last piece stored
there, and every other byte of memory stays, and so it is in the sectors that the core's L1 holds. That an access takes place at its issue or at its
return, as said here, is the model's reading (log 22). -/
def Obligations.StorePerformed : Prop :=
  ∀ (s : State) (id : WarpId) (n : Nat) (p : PendStore), s.mem.wf = true → p ∈ s.stores → p.warp = id → p.id = n → p.acked = false →
    (∀ q ∈ s.stores, q.id = n ∨ (q.core = p.core ∧ q.warp.ctx = id.ctx) → q = p) →
    (∀ l ∈ p.lanes, s.homeBlocked [(id, n)] l.1.ha = false ∧ s.storeCode id.ctx l.1.ha = 0#8 ∧
      (l.1.ha < 2 ^ 52 → s.owns id.ctx l.1.ha = true) ∧ l.2.length = l.1.len ∧ l.1.ha % 64 + l.1.len ≤ 64 ∧ 0 < l.1.len) →
    (∀ y ∈ s.l1, y.dirty = false ∧ y.bytes.length = 64) →
    let last (a : Nat) := (p.lanes.filter fun l => decide (l.1.ha ≤ a) && decide (a < l.1.ha + l.1.len)).getLast?
    ∃ t, exec (.storeAcknowledged id n) s = .next t ∧ (∀ q ∈ t.stores, q.id ≠ n) ∧
      (∀ a, t.mem.read a = match last a with | some l => l.2.getD (a - l.1.ha) 0#8 | none => s.mem.read a) ∧
      ∀ a, heldByte t p.core id.ctx a = (heldByte s p.core id.ctx a).map fun old => match last a with | some l => l.2.getD (a - l.1.ha) 0#8 | none => old

/-! ### Control (R103, R104, R174 to R190) -/

namespace Sys2Proof.Claims

/-- `s` with its issuing fragment at another address; nothing else changes. -/
def jumpedTo (s : State) (a : Addr) : State :=
  { s with w := { s.w with slots := s.w.slots.set s.w.cur { s.w.slots[s.w.cur] with frag := { s.w.frag with pc := a } } } }

/-- A displacement target (R104): the program counter plus four times the signed displacement. -/
def displaced {n : Nat} (pc : Addr) (d : BitVec n) : Addr := BitVec.ofInt 64 (pc.toInt + 4 * d.toInt)

/-- The active threads whose predicate bit is set. -/
def yes (w : Warp) (p : Pred) : List (Fin 32) := (active w).filter fun k => (w.readP p).getLsbD k.val

/-- Instructions that only transfer control or do nothing: whether they transfer it, and where (R176, R178, R189). -/
def branchOf (w : Warp) : Instr → Option (Bool × Addr)
  | .bra d => some (true, displaced w.frag.pc d)
  | .brany p d => some (!(yes w p).isEmpty, displaced w.frag.pc d)
  | .brall p d => some ((yes w p).length == (active w).length, displaced w.frag.pc d)
  | .brz r d => some (w.readS r == 0#32, displaced w.frag.pc d)
  | .brnz r d => some (w.readS r != 0#32, displaced w.frag.pc d)
  | .jmpr r => some (true, pairOf w r)
  | .nop => some (false, 0#64)
  | _ => none

end Sys2Proof.Claims

/-- R103, R104, R176, R178, R189: branches, `jmpr` and `nop` change the program counter and nothing else; `yield` also sets the yield
condition of its slot (R22). -/
def Obligations.Branches : Prop :=
  ∀ (s : State),
    (∀ (i : Instr) (b : Bool) (a : Addr), branchOf s.w i = some (b, a) → s.precheck i = none →
      (b = true → exec i s = .next (jumpedTo s a)) ∧ (b = false → ∃ v, Completed s v ∧ exec i s = .next { s with w := v })) ∧
    (s.precheck .yield = none → ∃ v, Completed s v ∧ exec .yield s = .next { s with w := { v with yielded := s.w.yielded.set s.w.cur true } })

namespace Sys2Proof.Claims

/-- Free split-stack entries in ascending order (R19). -/
def freeSplits (w : Warp) : List Nat := (List.range 64).filter fun i => w.split[i]? == some SplitEntry.free

/-- The slot beside the issuing one. -/
def otherSlot (w : Warp) : Fin 2 := if w.cur = 0 then 1 else 0

/-- What a slot's fragment had asked for is over (R22, R84). -/
def settled (w : Warp) (k : Fin 2) : Warp :=
  { w with yielded := w.yielded.set k false, replay := w.replay.set k [], linkWait := w.linkWait.set k none }

/-- The entries of the warp's split stack that a split writes, as the private path's accesses (R19, R177). -/
def entryReqs (w : Warp) (l : List (Nat × List Byte)) : List LaneReq := l.map fun p => ⟨0, w.entryVa p.1, 0, 0, 16⟩

/-- The issuing fragment of a split as its fall-through side, under record e. -/
def fallThrough (w : Warp) (rest : Mask) (e : Nat) : Slot :=
  { w.slots[w.cur] with frag := ⟨nextOf w.frag.pc, rest, w.frag.fmt, some e, w.frag.entered⟩ }

end Sys2Proof.Claims

/-- R15, R19, R31, R177: `brd` continues, branches, or splits. A split makes a record in the lowest
free entry; the fall-through side keeps the slot, the taken side enters the other slot, or, where
that is occupied or the warp is a legacy wave, the next free entry at the tail of the spill queue;
without the entries that it needs the split raises 0x13. The record and a spilled fragment are
written to private memory, after the core's pending stores to the entries, and wait for loads of
them as a private store does. A split record of a spilled fragment is also written to private
memory (the model's reading, log 7). That the rotation count starts at 0 with the first
fragment spilled into an empty queue is the model's choice (log 48). -/
def Obligations.BrdSplits : Prop :=
  ∀ (s : State) (p : Pred) (t j : BitVec 10), s.precheck (.brd p t j) = none →
    let w := s.w
    let taken := w.frag.mask &&& w.readP p
    let rest := w.frag.mask &&& ~~~(w.readP p)
    let record : SplitEntry := .record w.frag.record (displaced w.frag.pc j) w.frag.mask w.frag.fmt 2
    let room := w.legacy = false ∧ w.slots[otherSlot w].st = .empty
    (taken = 0#32 → ∃ v, Completed s v ∧ exec (.brd p t j) s = .next { s with w := v }) ∧
    (taken ≠ 0#32 → rest = 0#32 → exec (.brd p t j) s = .next (jumpedTo s (displaced w.frag.pc t))) ∧
    (taken ≠ 0#32 → rest ≠ 0#32 →
      (∀ e more, freeSplits w = e :: more → room → s.privWriteCode w (w.entryVa e) 16 = 0#8 →
        let writes := [(e, splitBytes record none)]
        let u := (s.privDrain w .store (entryReqs w writes)).privWrite w (w.entryVa e) (splitBytes record none)
        s.privWaits w .store (entryReqs w writes) = none →
        exec (.brd p t j) s = .next { u with
          w := { settled u.w (otherSlot w) with
            split := u.w.split.setIfInBounds e record
            slots := (u.w.slots.set u.w.cur (fallThrough u.w rest e)).set (otherSlot w)
              ⟨.live, ⟨displaced w.frag.pc t, taken, w.frag.fmt, some e, s.clock⟩⟩ } }) ∧
      (∀ e f more, freeSplits w = e :: f :: more → ¬ room →
        let side : Fragment := ⟨displaced w.frag.pc t, taken, w.frag.fmt, some e, s.clock⟩
        let q : Fin 2 := if w.legacy then w.cur else 0
        let writes := splitWrites w e record (some (f, side))
        (∀ x ∈ writes, s.privWriteCode w (w.entryVa x.1) 16 = 0#8) → s.privWaits w .store (entryReqs w writes) = none →
        let u := writes.foldl (fun u x => u.privWrite w (w.entryVa x.1) x.2) (s.privDrain w .store (entryReqs w writes))
        exec (.brd p t j) s = .next { u with
          w := { u.w with
            split := (u.w.split.setIfInBounds e record).setIfInBounds f (.spilled side)
            slots := u.w.slots.set u.w.cur (fallThrough u.w rest e)
            spill := u.w.spill.set q (u.w.spill[q] ++ [f])
            rotation := if u.w.spill[q].isEmpty then u.w.rotation.set q 0 else u.w.rotation } }) ∧
      (freeSplits w = [] ∨ (∃ e, freeSplits w = [e]) ∧ ¬ room → exec (.brd p t j) s = .next (s.raise { code := 0x13#8, mask := w.frag.mask })))

/-- R182 to R185: `loop` starts the lowest free level of the wave, skips its body for a count of 0, and raises 0x14 where all are live; at the
end word of the innermost level that the fragment owns, `nop` goes back to the loop's start until the count runs out (every other instruction
that continues sequentially does so too, as `Advanced` in its own statement says); `lbrk` ends that level and continues past its end. -/
def Obligations.HardwareLoops : Prop :=
  ∀ (s : State),
    (∀ (r : Reg) (b : BitVec 12), s.precheck (.loop r b) = none →
      let last := BitVec.ofNat 64 (s.w.frag.pc.toNat + 4 * b.toNat)
      (s.w.readS r = 0#32 → exec (.loop r b) s = .next (jumpedTo s (nextOf last))) ∧
      (s.w.readS r ≠ 0#32 → (∀ l ∈ waveLevels s.w, s.w.loops[l].live = true) →
        exec (.loop r b) s = .next (s.raise { code := 0x14#8, mask := s.w.frag.mask })) ∧
      ∀ l ∈ waveLevels s.w, s.w.readS r ≠ 0#32 → s.w.loops[l].live = false → (∀ m ∈ waveLevels s.w, m < l → s.w.loops[m].live = true) →
        exec (.loop r b) s = .next (jumpedTo { s with w := { s.w with
          loops := s.w.loops.set l ⟨true, nextOf s.w.frag.pc, last, s.w.readS r, s.w.frag.mask, s.w.loopOrder⟩
          loopOrder := s.w.loopOrder + 1 } } (nextOf s.w.frag.pc))) ∧
    (∀ l, OwnsInnermost s.w l → s.w.loops[l].le = s.w.frag.pc → s.precheck .nop = none →
      (s.w.loops[l].lc ≠ 1#32 → exec .nop s = .next (jumpedTo { s with w := { s.w with
        loops := s.w.loops.set l { s.w.loops[l] with lc := s.w.loops[l].lc - 1#32 } } } s.w.loops[l].ls)) ∧
      (s.w.loops[l].lc = 1#32 → (∀ m : Fin 4, m ≠ l → s.w.loops[m].live = true → s.w.loops[m].le ≠ s.w.frag.pc) →
        exec .nop s = .next (jumpedTo { s with w := { s.w with loops := s.w.loops.set l freeLevel } } (nextOf s.w.frag.pc)))) ∧
    (∀ l, OwnsInnermost s.w l → s.precheck .lbrk = none →
      exec .lbrk s = .next (jumpedTo { s with w := { s.w with loops := s.w.loops.set l freeLevel } } (nextOf s.w.loops[l].le)))

namespace Sys2Proof.Claims

/-- The return entry of thread k at a depth (R87, R179). -/
def returnEntry (w : Warp) (k : Fin 32) (depth : Nat) : Nat := w.privBase + w.privsz * 32 + 1024 + 8 * (32 * depth + k.val)

/-- The return entries of the active threads can be used (`SectorAt`) under a cached translation, dirty where they are written. -/
def ReturnReady (s : State) (a : Access) (write : Bool) (va ha : Fin 32 → Nat) : Prop :=
  ∀ k : Fin 32, on s.w k = true →
    s.translate (.core s.w.core) s.w.id.ctx a s.w.super (va k) = .ok (ha k) ∧ ha k < 2 ^ 52 ∧ ha k % 64 = va k % 64 ∧ ha k % 64 ≤ 56 ∧
      (∃ e, s.cached (.core s.w.core) s.w.id.ctx (va k) = some e ∧ (write = true → e.pte.getLsbD 5 = true)) ∧
      SectorAt s (ha k)

/-- The sectors of the return entries of the active threads. -/
def returnSectors (s : State) (ha : Fin 32 → Nat) : List Nat := ((active s.w).map fun k => ha k / 64 * 64).eraseDups

/-- The eight bytes that the core's L1 holds at a home address. -/
def heldAddress (s : State) (ha : Nat) : Nat := heldWord s ha + heldWord s (ha + 4) * 2 ^ 32

/-- The call depths of the active threads after a change. -/
def depths (w : Warp) (f : Nat → Nat) : Vector Nat 32 := Vector.ofFn fun k => if on w k then f w.depth[k] else w.depth[k]

/-- Where `call` and `callr` go. -/
def callOf (w : Warp) : Instr → Option Addr
  | .call d => some (displaced w.frag.pc d)
  | .callr r => some (pairOf w r)
  | _ => none

end Sys2Proof.Claims

/-- R74, R178 to R181: a call writes next(pc) to each active thread's return entry, in the core's L1, into which its sector is filled where it
misses, and raises the depths; no other byte of any core's L1 changes. `ret` goes where the entries of all active threads agree and lowers
the depths; where an entry is not in L1 it waits as for a load, and goes on once that has come. A depth of 32 or 0 in some thread raises
0x0C, and entries that disagree 0x13. That a miss takes its whole sector is the model's reading (log 60), and so is that `ret` reads its words when
it issues again after they have come (log 22). -/
def Obligations.CallsAndReturns : Prop :=
  ∀ (s : State) (ha : Fin 32 → Nat),
    (∀ (i : Instr) (a : Addr), callOf s.w i = some a → s.precheck i = none →
      ((∃ k, on s.w k = true ∧ s.w.depth[k] = 32) → exec i s = .next (s.raise { code := 0x0C#8, mask := s.w.frag.mask })) ∧
      ((∀ k, on s.w k = true → s.w.depth[k] < 32) → ReturnReady s .store true (fun k => returnEntry s.w k s.w.depth[k]) ha →
        L1Room s (returnSectors s ha) →
        (∀ k m, on s.w k = true → on s.w m = true →
          (ha k / 64 = ha m / 64 ↔ returnEntry s.w k s.w.depth[k] / 64 = returnEntry s.w m s.w.depth[m] / 64)) →
        (∀ k, on s.w k = true → QuietAt s true (ha k) 8) →
        ∃ u, exec i s = .next u ∧
          PathUsed s (jumpedTo { s with w := { s.w with depth := depths s.w (· + 1) } } a) u (returnSectors s ha)
            (fun x => (active s.w).any fun k => decide (ha k ≤ x) && decide (x < ha k + 8)) ∧
          ∀ k, on s.w k = true → heldAddress u (ha k) = (nextOf s.w.frag.pc).toNat % 2 ^ 57 ∧
            (u.l1Sector s.w.core s.w.id.ctx (ha k)).any (fun x => x.dirty && x.priv) = true)) ∧
    (s.precheck .ret = none →
      ((∃ k, on s.w k = true ∧ s.w.depth[k] = 0) → exec .ret s = .next (s.raise { code := 0x0C#8, mask := s.w.frag.mask })) ∧
      ((∀ k, on s.w k = true → 0 < s.w.depth[k]) → (∀ x ∈ s.w.loads, x.kind ≠ .returnWords) → (∀ k, on s.w k = true → QuietAt s false (ha k) 8) →
        (∀ k, on s.w k = true → s.translate (.core s.w.core) s.w.id.ctx .load s.w.super (returnEntry s.w k (s.w.depth[k] - 1)) = .ok (ha k)) →
        (∃ k, on s.w k = true ∧ s.l1Sector s.w.core s.w.id.ctx (ha k) = none) →
        (∀ k, on s.w k = true → s.homeBlocked [] (ha k) = false) →
        let words := (active s.w).map fun k => (⟨k.val, returnEntry s.w k (s.w.depth[k] - 1), ha k, 0, 8⟩ : LaneReq)
        exec .ret s = .next { s with nextId := s.nextId + 1, w := { s.w with
          loads := s.w.loads ++ [⟨s.nextId, s.w.frag.pc, 8, 0, words, .returnWords, none, 0#32, requestCount s ha, true, none, s.clock, []⟩]
          hold := s.w.hold.set s.w.cur (some (.loadResult true)) } }) ∧
      ((∀ k, on s.w k = true → 0 < s.w.depth[k]) → ReturnReady s .load false (fun k => returnEntry s.w k (s.w.depth[k] - 1)) ha →
        L1Room s (returnSectors s ha) → (∀ k, on s.w k = true → QuietAt s false (ha k) 8) →
        ∀ (x : Load) (A : Nat),
          s.w.loads.find? (fun y => y.kind == .returnWords && y.pc == s.w.frag.pc &&
            y.lanes.map (·.va) == (active s.w).map fun k => returnEntry s.w k (s.w.depth[k] - 1)) = some x → x.data.isSome = true →
          A % 4 = 0 → A / 4 % 8 ≠ 0 → (∃ k, on s.w k = true) → (∀ k, on s.w k = true → seenNumber s (ha k) 8 = A) →
          ∃ u, exec .ret s = .next u ∧
            PathUsed s (jumpedTo { s with w := { s.w with loads := s.w.loads.filter (fun y => y.id != x.id), depth := depths s.w (· - 1) } }
              (BitVec.ofNat 64 A)) u (returnSectors s ha) fun _ => false) ∧
      ((∀ k, on s.w k = true → 0 < s.w.depth[k]) → ReturnReady s .load false (fun k => returnEntry s.w k (s.w.depth[k] - 1)) ha →
        (∀ k, on s.w k = true → (s.l1Sector s.w.core s.w.id.ctx (ha k)).isSome) →
        (∀ x ∈ s.w.loads, x.kind ≠ .returnWords) → (∀ k, on s.w k = true → QuietAt s false (ha k) 8) →
        (∀ A : Nat, A % 4 = 0 → A / 4 % 8 ≠ 0 → (∃ k, on s.w k = true) → (∀ k, on s.w k = true → heldAddress s (ha k) = A) →
          exec .ret s = .next (jumpedTo { s with w := { s.w with depth := depths s.w (· - 1) } } (BitVec.ofNat 64 A))) ∧
        ((∃ k m, on s.w k = true ∧ on s.w m = true ∧ heldAddress s (ha k) ≠ heldAddress s (ha m)) →
          exec .ret s = .next (s.raise { code := 0x13#8, mask := s.w.frag.mask }))))

/-- R16, R17, R187, R215, R216: `exit` ends the fragment's threads and frees its slot, where nothing is spilled and no loop is live. A fragment
without a record leaves the slot empty; under a record whose other fragments have not come, the count falls; the last one fuses them at
the join and frees the record. The record is rewritten in private memory where that can be done (the model's reading, log 42). Once all threads have exited, open operations and copies are closed into batches. -/
def Obligations.ExitEnds : Prop :=
  ∀ (s : State), s.precheck .exit = none → (∀ q : Fin 2, s.w.spill[q] = []) → (∀ l : Fin 4, s.w.loops[l].live = false) →
    let w := s.w
    let gone := w.exited ||| w.frag.mask
    let ended : Warp := { settled w w.cur with exited := gone, slots := w.slots.set w.cur ⟨.empty, Fragment.none⟩ }
    let wrote (v : Warp) (e : Nat) (x : SplitEntry) : State :=
      if s.privWriteCode v (v.entryVa e) 16 = 0#8 then s.privWrite v (v.entryVa e) (splitBytes x none) else s
    (w.frag.record = none → gone ≠ 0xFFFFFFFF#32 → exec .exit s = .next { s with w := ended }) ∧
    (∀ e parent join full fmt count, w.frag.record = some e → w.split[e]? = some (.record parent join full fmt count) → gone ≠ 0xFFFFFFFF#32 →
      (1 < count →
        let x : SplitEntry := .record parent join full fmt (count - 1)
        let v := { ended with split := w.split.setIfInBounds e x }
        exec .exit s = .next { wrote v e x with w := v }) ∧
      (count ≤ 1 → full &&& ~~~gone ≠ 0#32 →
        let v := { ended with
          split := w.split.setIfInBounds e .free
          slots := w.slots.set w.cur ⟨.live, ⟨join, full &&& ~~~gone, fmt, parent, s.clock⟩⟩ }
        exec .exit s = .next { wrote v e .free with w := v })) ∧
    (w.frag.record = none → gone = 0xFFFFFFFF#32 → w.present = true → (∀ t, s.team = some t → t.request = none) →
      (∀ l ∈ s.latches, l.team ≠ w.id.teamId) →
      exec .exit s = .next { s with
        w := { ended with
          openOps := [], openCopies := []
          tileBatches := w.tileBatches ++ (if w.openOps = [] then [] else [(⟨w.openOps⟩ : Batch)])
          copyBatches := (w.copyBatches ++ (if w.openCopies = [] then [] else [(⟨w.openCopies⟩ : Batch)])).dropWhile
            fun b => !(b.ops.any fun k => s.copies.any fun c => c.id == k) } })

/-! ### Claims, formats, and the matrix queue (R28, R42, R212 to R230, R249 to R255) -/

namespace Sys2Proof.Claims

/-- The warps that a gang value names (R28): bits 10:8 give the group of eight, bits 7:0 its members. -/
def gangOf (g : Word) : List Nat := (List.range 64).filter fun k => decide (k / 8 = g.toNat / 2 ^ 8 % 8) && g.getLsbD (k % 8)

/-- A legal gang value of a warp in a team of n warps (R28): 0, or two to six warps of the warp's own group, the warp among them. -/
def gangFits (g : Word) (warp n : Nat) : Bool :=
  g == 0#32 || (decide (g.toNat < 2 ^ 11) && decide (warp / 8 = g.toNat / 2 ^ 8) && decide (2 ≤ (gangOf g).length) && decide ((gangOf g).length ≤ 6) &&
    decide (warp ∈ gangOf g) && (gangOf g).all fun k => decide (k < n))

/-- A legal value of `fmt` (R42): reserved bits and values, afmt and bfmt of one family, codes 6 and 7 only with scale mode 1, family W only with
scale mode 0, sparsity only with LG6 as B, and a drain code of 0 to 7, whatever the scale mode (log 72). -/
def FormatLegal (f : Word) : Prop :=
  f.toNat < 2 ^ 17 ∧ oneFamily (aCode f) (bCode f) ∧ scaleMode f ≠ 3 ∧ f.toNat / 2 ^ 14 % 4 ≠ 3 ∧ f.toNat / 2 ^ 10 % 16 ≤ 7 ∧
    (aCode f ∈ [6, 7] ∨ bCode f ∈ [6, 7] → scaleMode f = 1) ∧ (aCode f ∈ [3, 4] → scaleMode f = 0) ∧ (f.toNat / 2 ^ 14 % 4 ≠ 0 → bCode f = 0)

/-- What a team's index names: the first pair with that index. -/
def claimed (m : List (Nat × Nat)) (ix : Nat) : Option Nat := (m.find? fun p => p.1 == ix).map (·.2)

end Sys2Proof.Claims

/-- R22, R28, R35, R42, R221, R249 to R251, R255: `gang` and `fmt` write their registers with a legal value and raise 0x0F and 0x01 with another; `winb`
sets the window base; `sleep` sets the warp's wake-up time, or, for 0, the yield condition. That a drain code of 6 or 7, or of 3 or 4, is legal with
every scale mode is the model's choice (log 72). -/
def Obligations.WarpSettings : Prop :=
  ∀ (s : State) (x : Reg),
    (∀ t, s.team = some t → s.precheck (.gang x) = none →
      (gangFits (s.w.readS x) s.w.id.warp t.warps = true → ∃ v, Completed s v ∧ exec (.gang x) s = .next { s with w := { v with gang := s.w.readS x } }) ∧
      (gangFits (s.w.readS x) s.w.id.warp t.warps = false → exec (.gang x) s = .next (s.raise { code := 0x0F#8, mask := s.w.frag.mask }))) ∧
    (s.precheck (.fmt x) = none →
      (FormatLegal (s.w.readS x) →
        let w := { s.w with slots := s.w.slots.set s.w.cur { s.w.slots[s.w.cur] with frag := { s.w.frag with fmt := s.w.readS x } } }
        ∃ v, v = { w with slots := v.slots, loops := v.loops } ∧ Advanced w v ∧ exec (.fmt x) s = .next { s with w := v }) ∧
      (¬ FormatLegal (s.w.readS x) → exec (.fmt x) s = .next (s.raise { code := 0x01#8, mask := s.w.frag.mask }))) ∧
    (∀ b : BitVec 4, s.precheck (.winb b) = none → ∃ v, Completed s v ∧ exec (.winb b) s = .next { s with w := { v with wbase := 16 * b.toNat } }) ∧
    (∀ n : BitVec 16, s.precheck (.sleep n) = none → ∃ v, Completed s v ∧ exec (.sleep n) s = .next { s with w :=
      if n = 0#16 then { v with yielded := s.w.yielded.set s.w.cur true } else { v with sleepUntil := some (s.clock + 64 * n.toNat) } })

/-- R222: `tclaim` gives the team the lowest free operand slot (k = 0) or accumulator tile (k = 1) of its core behind the lowest index that it does
not hold, and the index; 0xFFFFFFFF where there is none. A newly claimed accumulator keeps its contents only within its context (its undo entry
of another context is kept for that context, `undoGone`, R334). `trel` of
an index that the team does not hold, or whose release waits, raises 0x1A; with no unfinished operation on the core and no other release
waiting, the slot or tile is free at once. -/
def Obligations.ClaimsComeAndGo : Prop :=
  (∀ (s : State) (k : BitVec 1) (x : Reg) (t : Team), s.team = some t → s.precheck (.tclaim k x) = none →
      let c := s.core t.core
      let n := if k = 1#1 then 4 else 16
      let free (i : Nat) : Bool := if k = 1#1 then (c.accs[i]?).any fun a => a.claim.isNone else (c.slots[i]?).any fun a => a.claim.isNone
      let held (i : Nat) : Bool := (claimed (if k = 1#1 then t.accMap else t.slotMap) i).isSome
      ((∀ i < n, free i = false) ∨ (∀ i < n, held i = true) → ∃ u, exec (.tclaim k x) s = .next u ∧ ScalarResult s u (one x 0xFFFFFFFF#32) 0#32) ∧
      ∀ p ix, p < n → free p = true → (∀ i < p, free i = false) → ix < n → held ix = false → (∀ i < ix, held i = true) →
        ∃ u, exec (.tclaim k x) s = .next u ∧ ScalarResult { s with cores := u.cores, teams := u.teams, ctxs := u.ctxs } u (one x (low32 ix)) 0#32 ∧
          (∃ f : Ctx → List (CoreId × Nat), u.ctxs = s.ctxs.map fun y => { y with undoGone := f y }) ∧
          u.team = some (if k = 1#1 then { t with accMap := t.accMap ++ [(ix, p)] } else { t with slotMap := t.slotMap ++ [(ix, p)] }) ∧
          (∀ i : Fin 16, (u.core t.core).slots[i] = if k = 0#1 ∧ i.val = p then ⟨some t.id, false, none, false⟩ else c.slots[i]) ∧
          ∀ i : Fin 4, (u.core t.core).accs[i] =
            if k = 1#1 ∧ i.val = p then
              { claim := some t.id, release := false, lastCtx := c.accs[i].lastCtx
                data := if c.accs[i].lastCtx = some t.id.ctx then c.accs[i].data else Vector.replicate 128 (Vector.replicate 128 0#32)
                logged := if c.accs[i].lastCtx = some t.id.ctx then c.accs[i].logged else none }
            else c.accs[i]) ∧
  ∀ (s : State) (k : BitVec 1) (x : Reg) (t : Team), s.team = some t → s.precheck (.trel k x) = none →
    let c := s.core t.core
    let m := claimed (if k = 1#1 then t.accMap else t.slotMap) (s.w.readS x).toNat
    (m = none → exec (.trel k x) s = .next (s.raise { code := 0x1A#8, mask := s.w.frag.mask })) ∧
    ∀ p, m = some p →
      let waits := if k = 1#1 then (c.accs[p]?).any fun a => a.release else (c.slots[p]?).any fun a => a.release
      (waits = true → exec (.trel k x) s = .next (s.raise { code := 0x1A#8, mask := s.w.frag.mask })) ∧
      (p < (if k = 1#1 then 4 else 16) → (∀ o ∈ s.ops, o.core = t.core → o.done = true) → (∀ i : Fin 16, c.slots[i].release = false) →
        (∀ i : Fin 4, c.accs[i].release = false) →
        ∃ u v, exec (.trel k x) s = .next u ∧ Completed s v ∧ u = { s with cores := u.cores, teams := u.teams, w := v } ∧
          (∀ i : Fin 16, (u.core t.core).slots[i] = if k = 0#1 ∧ i.val = p then ⟨none, false, none, false⟩ else c.slots[i]) ∧
          (∀ i : Fin 4, (u.core t.core).accs[i] =
            if k = 1#1 ∧ i.val = p then { c.accs[i] with claim := none, release := false, lastCtx := c.accs[i].claim.map (·.ctx) } else c.accs[i]) ∧
          u.teams = s.teams.map fun y => if y.core = t.core then
            (if k = 1#1 then { y with accMap := y.accMap.filter fun q => q.2 != p } else { y with slotMap := y.slotMap.filter fun q => q.2 != p }) else y)

namespace Sys2Proof.Claims

/-- `u` is `b`, which is `s` after the records that the instruction named were read, after the warp's instruction was accepted as a matrix
operation of this number and work, and the fragment continued: it is open for the warp, it owns the lines that it will write, which leave
the core's L1 (R286), and these registers are leased to it. -/
def AcceptedAs (s b u : State) (opcode : Nat) (work : MatrixWork) (reads lines : List Nat) (lease : List Nat) : Prop :=
  ∃ v, Advanced s.w v ∧
    v = { s.w with slots := v.slots, loops := v.loops, openOps := s.w.openOps ++ [s.nextId], leases := s.w.leases ++ lease.map fun r => (r, s.nextId) } ∧
    u = { b.ownLines s.w.core s.w.id.ctx lines with
      nextId := s.nextId + 1, w := v
      ops := s.ops ++ [⟨s.nextId, s.w.id.ctx, s.w.core, s.w.id, opcode, s.w.frag.fmt, work, false, false, false, lines, reads, s.clock⟩] }

/-- The number in a scalar, and in the scalars that follow it. -/
def scalarN (w : Warp) (r : Reg) (k : Nat) : Nat := (w.readS (r + BitVec.ofNat 7 k)).toNat

/-- The matrix queue of the warp's core has room, and the warp is present. -/
def QueueRoom (s : State) : Prop := s.w.present = true ∧ (s.ops.filter fun o => o.core == s.w.core && !o.done).length < 128

/-- The joint instructions: operation number, A by handle, B by handle, zero first, x, y, z. -/
def jointOf : Instr → Option Joint
  | .mma h g c x y z => some ⟨4, h == 1#1, g == 1#1, c == 1#1, x, y, z⟩
  | .mmag h g c x y z => some ⟨5, h == 1#1, g == 1#1, c == 1#1, x, y, z⟩
  | .mmsp h g c x y z => some ⟨6, h == 1#1, g == 1#1, c == 1#1, x, y, z⟩
  | _ => none

/-- What warp w supplies as an operand from r (R225): the claimed physical slots of an index, two in a row for a 16-bit format; or the record of a
handle, as the core's fetcher reads it (R214), with its coordinates and, in scale modes 1 and 2, its scale record, of the format and shape of its
role (R43, R46). `rows` says which tiles suit. -/
def Supplies (s : State) (t : Team) (w : Warp) (mode format : Nat) (rows : Nat → Prop) (cols scaleRows scaleCols : Nat) (handle : Bool) (r : Reg)
    (x : MatrixSource) : Prop :=
  if handle then
    ∃ q sc, s.fetchRecord t.core t.id.ctx (scalarN w r 0) = .ok q ∧ s.useScale t.core t.id.ctx mode q = .ok sc ∧ q.format = format ∧ rows q.rows ∧ q.cols = cols ∧
      (mode = 1 → ∃ y, sc = some y ∧ y.rows = scaleRows ∧ y.cols = scaleCols) ∧ x = .handle q (scalarN w r 1) (scalarN w r 2) sc
  else
    ∃ p, claimed t.slotMap (scalarN w r 0) = some p ∧
      if format ∈ [3, 4] then ∃ q, claimed t.slotMap (scalarN w r 0 + 1) = some q ∧ x = .slot [p, q] else x = .slot [p]

/-- What a joint operation of these warps captures (R30, R225, R226): from the leader the accumulator, A and, for `mma` and `mmsp`, B; from every
member, for `mmag`, the B of its band; for `mmsp` the metadata, an N × 128 tile of format 8 and packing 1 under a sparsity that is not 0. -/
def Captured (s : State) (t : Team) (leader : Warp) (members : List Warp) (j : Joint) (work : MatrixWork) : Prop :=
  let f := leader.frag.fmt
  let sparsity := f.toNat / 2 ^ 14 % 4
  let kept (n : Nat) : Prop := (sparsity = 1 → n = 5) ∧ (sparsity = 2 → n = 4) ∧ (n = 4 ∨ n = 5)
  let suppliesB (w : Warp) (x : MatrixSource) : Prop :=
    Supplies s t w (scaleMode f) (bCode f) (if j.opcode = 6 then kept else fun n => n = 6) 7 1 7 j.bHandle j.z x
  ∃ acc a bs m, work = .multiply acc j.zero a bs m ∧ claimed t.accMap (scalarN leader j.x 0) = some acc ∧
    Supplies s t leader (scaleMode f) (aCode f) (fun n => n = 7) 6 7 1 j.aHandle j.y a ∧
    (j.opcode ≠ 5 → ∃ x, bs = [(0, 128, x)] ∧ suppliesB leader x) ∧
    (j.opcode = 5 → bs.length = members.length ∧ ∀ i w, members[i]? = some w →
      ∃ x, bs[i]? = some (bandStart members.length i, bandStart members.length (i + 1), x) ∧ suppliesB w x) ∧
    (j.opcode ≠ 6 → m = none) ∧
    (j.opcode = 6 → sparsity ≠ 0 ∧ ∃ q, m = some (q, scalarN leader j.z 4, scalarN leader j.z 5) ∧
      s.fetchRecord t.core t.id.ctx (scalarN leader j.z 3) = .ok q ∧ q.format = 8 ∧ q.packing = 1 ∧ kept q.rows ∧ q.cols = 7)

end Sys2Proof.Claims

/-- R214, R215, R218, R223, R225, R228 to R230, R286: an operation whose operands pass its checks
enters the core's queue with everything it captured (a joint one: `Captured`), the lines that it will read and write among it,
and the warp goes on; `drainv` leases its four registers. A tile of more than 8,192 bytes takes
two slots from an even index. A record that the core's fetcher does not hold is read from memory, which leaves what any read of it leaves (R68),
and is held, at most 64 of them; one that it holds is used whatever memory then holds. A warp whose gang register is 0 issues the joint
instructions alone. Corners that no rule settles are the model's (log 28). -/
def Obligations.MatrixAcceptance : Prop :=
  ∀ (s : State) (t : Team), s.team = some t → QueueRoom s →
    let ctx := s.w.id.ctx
    let mode := s.w.frag.fmt.toNat / 2 ^ 8 % 4
    let e : Engine := ⟨.fetcher s.w.core, ctx, false⟩
    (∀ (x y : Reg) (p : Nat) (r : TileRecord) (sc : Option TileRecord), s.precheck (.tfetch x y) = none →
      claimed t.slotMap (scalarN s.w x 0) = some p → s.fetchRecord t.core ctx (scalarN s.w y 0) = .ok r →
      (r.format = s.w.frag.fmt.toNat % 16 ∨ r.format = s.w.frag.fmt.toNat / 2 ^ 4 % 16) → s.useScale t.core ctx mode r = .ok sc →
      let bytes := 2 ^ r.rows * 2 ^ r.cols * elemBytes r.format
      let b := s.fetchReads t.core ctx (if mode = 0 then [scalarN s.w y 0] else [scalarN s.w y 0, r.scale])
      let row := scalarN s.w y 1
      let col := scalarN s.w y 2
      let reads := s.engineLines e .engineRead (sourceAddrs mode r row col sc)
      (bytes ≤ 8192 → ∃ u, exec (.tfetch x y) s = .next u ∧ AcceptedAs s b u 3 (.tfetch [p] r row col sc) reads [] []) ∧
      (∀ q, 8192 < bytes → bytes ≤ 16384 → scalarN s.w x 0 % 2 = 0 → claimed t.slotMap (scalarN s.w x 0 + 1) = some q →
        ∃ u, exec (.tfetch x y) s = .next u ∧ AcceptedAs s b u 3 (.tfetch [p, q] r row col sc) reads [] [])) ∧
    (∀ (x : Reg) (a : Nat), claimed t.accMap (scalarN s.w x 0) = some a →
      (s.precheck (.accz x) = none → ∃ u, exec (.accz x) s = .next u ∧ AcceptedAs s s u 7 (.accz a) [] [] []) ∧
      (∀ y z : Reg, s.precheck (.drainv x y z) = none → Unleased s (.drainv x y z) →
        let first := s.w.wbase + y.toNat
        ∃ u, exec (.drainv x y z) s = .next u ∧
          AcceptedAs s s u 9 (.drainv a (scalarN s.w z 0 % 128) first) [] [] [first, first + 1, first + 2, first + 3]) ∧
      (∀ (y z : Reg) (r : TileRecord) (sc : Option TileRecord), s.precheck (.drainmx x y z) = none →
        s.drainCheck s.w.core ctx (scalarN s.w y 0) (scalarN s.w z 0) s.w.frag.fmt = .ok (r, sc) →
        let row := scalarN s.w y 1
        let col := scalarN s.w y 2
        let scale := sc.map fun q => (q, scalarN s.w z 1, scalarN s.w z 2)
        let writes := r.addresses row col ++ ((scale.map fun q => q.1.addresses q.2.1 q.2.2).getD [])
        ∃ u, exec (.drainmx x y z) s = .next u ∧
          AcceptedAs s (s.fetchReads s.w.core ctx [scalarN s.w y 0, scalarN s.w z 0]) u 8 (.drainmx a r row col scale) [] (s.engineLines e .engineWrite writes) [])) ∧
    (∀ (i : Instr) (j : Joint) (work : MatrixWork), jointOf i = some j → s.precheck i = none → s.w.gang = 0#32 →
      (s.jointWork t s.w [s.w] j = .ok work ↔ Captured s t s.w [s.w] j work) ∧
      (s.jointWork t s.w [s.w] j = .ok work →
      ∃ u, exec i s = .next u ∧ AcceptedAs s (s.fetchReads s.w.core ctx (s.jointHandles ctx s.w [s.w] j)) u j.opcode work (s.workLines e mode work) [] [])) ∧
    ∀ (core : CoreId) (h : Nat) (b : List Byte),
      (s.heldRecord core ctx h = none → s.recordBytesAt ctx h = .ok b →
        (s.fetchReads core ctx [h]).heldRecord core ctx h = some b ∧
          ((s.core core).records.length ≤ 64 → ((s.fetchReads core ctx [h]).core core).records.length ≤ 64)) ∧
      (s.heldRecord core ctx h = some b → s.fetchReads core ctx [h] = s ∧ ∀ m, State.fetchRecord { s with mem := m } core ctx h = s.recordOf ctx b)

namespace Sys2Proof.Claims

/-- The members that have arrived at a latch, in ascending warp number, each with the slot of its instruction. -/
def arrivedWarps (s : State) (l : Latch) : List Warp :=
  (sortBy (fun a b => decide (a.1 < b.1)) l.held).filterMap fun a =>
    (s.warp? ⟨l.team.ctx, l.team.grid, l.team.team, a.1⟩).map fun w => { w with cur := a.2 }

end Sys2Proof.Claims

/-- R28 to R30, R225, R226: a joint instruction of a warp with a gang value first meets the latch of that value: where its team holds none that
shares a warp with it, it opens one and waits there; where the latch is still incomplete, it joins it; where it is the last to arrive and all
have issued the same instruction with operands that pass, one operation enters the queue for the lowest-numbered warp, with what it captures
(`Captured`), and every member goes on. Members that issued different instructions raise 0x0F together, and so do the arriving warp and those in every latch of another gang value
that shares a warp with its own; their grid is terminated. -/
def Obligations.JointRendezvous : Prop :=
  ∀ (s : State) (i : Instr) (j : Joint), jointOf i = some j → s.precheck i = none → QueueRoom s → s.w.gang ≠ 0#32 →
    let id := s.w.id
    let mine := s.latches.filter fun l => l.team == id.teamId
    let arrival := (id.warp, i, s.w.cur)
    ((∀ l ∈ mine, l.gang ≠ s.w.gang ∧ ∀ k ∈ gangOf l.gang, k ∉ gangOf s.w.gang) →
      exec i s = .next { s with latches := s.latches ++ [⟨s.w.core, id.teamId, s.w.gang, [arrival]⟩] }) ∧
    (let clash := mine.filter fun l => (gangOf l.gang).any fun k => decide (k ∈ gangOf s.w.gang)
     (∀ l ∈ mine, l.gang ≠ s.w.gang) → clash ≠ [] →
      ∃ u, exec i s = .next u ∧
        u = State.raiseTogether { s with latches := s.latches.filter fun x => !clash.contains x } id.teamId (clash.flatMap (·.held) ++ [(id.warp, s.w.cur)]) 0x0F#8 ∧
        (s.w.stopped = false → ∀ g, s.grid = some g → g.status ≠ 3 → ∀ v ∈ u.warps, v.id.ctx = id.ctx → v.id.grid = id.grid → v.stopped = true)) ∧
    ∀ l, mine.find? (fun l => l.gang == s.w.gang) = some l → (∀ a ∈ l.arrived, a.1 ≠ id.warp) →
      let full : Latch := { l with arrived := l.arrived ++ [arrival] }
      let others := s.latches.filter fun x => x != l
      ((∃ k ∈ gangOf l.gang, ∀ a ∈ full.arrived, a.1 ≠ k) → exec i s = .next { s with latches := others ++ [full] }) ∧
      ((∀ k ∈ gangOf l.gang, ∃ a ∈ full.arrived, a.1 = k) →
        ((∃ a ∈ full.arrived, a.2.1 ≠ i) →
          ∃ u, exec i s = .next u ∧ u = State.raiseTogether { s with latches := others } id.teamId (l.held ++ [(id.warp, s.w.cur)]) 0x0F#8) ∧
        ((∀ a ∈ full.arrived, a.2.1 = i) → ∀ t leader rest work, s.team = some t → arrivedWarps s full = leader :: rest →
          (full.arrived.map (·.1)).Nodup → (∀ w ∈ leader :: rest, w.present = true) →
          let b : State := { s with latches := others }
          (b.jointWork t leader (leader :: rest) j = .ok work ↔ Captured b t leader (leader :: rest) j work) ∧
          (b.jointWork t leader (leader :: rest) j = .ok work →
          let reads := b.workLines ⟨.fetcher leader.core, id.ctx, false⟩ (leader.frag.fmt.toNat / 2 ^ 8 % 4) work
          ∃ u, exec i s = .next u ∧ u.latches = others ∧
            u.ops = s.ops ++ [⟨s.nextId, leader.id.ctx, leader.core, leader.id, j.opcode, leader.frag.fmt, work, false, false, false, [], reads, s.clock⟩] ∧
            ∀ w ∈ leader :: rest, ∃ v, u.warp? w.id = some v ∧ Advanced w v ∧
              v = { w with slots := v.slots, loops := v.loops, openOps := w.openOps ++ if w.id = leader.id then [s.nextId] else [] })))

namespace Sys2Proof.Claims

/-- No bank holds a store or an atomic that it has accepted and that is still to be performed there (R286). -/
def NothingAwaits (s : State) : Prop := s.stores = [] ∧ ∀ w ∈ s.warps, ∀ x ∈ w.loads, x.accepted.isSome = true → x.data.isSome = true

/-- The operation o of a core is next to be performed: it may begin, no store or accepted atomic is pending, and no release waits. -/
def Performable (s : State) (core op : Nat) (o : MatrixOp) : Prop :=
  s.ops.find? (fun p => p.id == op && p.core.n == core) = some o ∧ s.opReady o = true ∧ NothingAwaits s ∧
    (∀ i : Fin 16, (s.core o.core).slots[i].release = false) ∧ ∀ i : Fin 4, (s.core o.core).accs[i].release = false

/-- The operation stands as done in the queue. -/
def doneOps (s : State) (o : MatrixOp) : List MatrixOp := s.ops.map fun p => if p.id = o.id then { p with done := true } else p

/-- The accumulator tile of a core. -/
def accumulator (s : State) (c : CoreId) (a : Nat) : Vector (Vector Word 128) 128 :=
  (((s.core c).accs[a]?).map (·.data)).getD (Vector.replicate 128 (Vector.replicate 128 0#32))

end Sys2Proof.Claims

/-- R215, R218, R223, R225, R228 to R230: `accz` clears its tile and no other; `drainv` writes the 128
words of a row into its four registers, in all lanes; the oldest tile batch of a warp completes
once all its operations have finished, its team not in a save record, and its leases end. A tile fetch puts the fetched tile into
its slot; a multiplication writes `multiplied` of its operands into its accumulator; a drain
writes its rows, rotated where the fmt and the record say so, and their scales through the engine's path. What `multiplied`, `rotateRow` and
`drainRow` give is the subject of `MatrixNumbers`. R60, R61: a multiplication's invalid, overflow and NaR, and a drain's saturation too, are
ORed into the warp's flags. Each finishes its operation; a drain to memory of the host or a peer also takes its context's checkpoint (R293, read
with R335: log 66). Corners that no rule settles are the model's (log 28). -/
def Obligations.MatrixOperationsArePerformed : Prop :=
  (∀ (s : State) (core op : Nat),
      (∀ (o : MatrixOp) (a : Nat), Performable s core op o → o.work = .accz a → a < 4 →
        ∃ u, exec (.acczPerform core op) s = .next u ∧ u.ops = doneOps s o ∧ u.mem = s.mem ∧
          (∀ b < 4, accumulator u o.core b = if b = a then Vector.replicate 128 (Vector.replicate 128 0#32) else accumulator s o.core b)) ∧
      (∀ (o : MatrixOp) (a row first : Nat) (w : Warp), Performable s core op o → o.work = .drainv a row first → row < 128 → first + 4 ≤ 256 →
        s.warp? o.warp = some w →
        ∃ u v, exec (.drainvPerform core op) s = .next u ∧ u.ops = doneOps s o ∧ u.warp? o.warp = some v ∧ v = { w with vectors := v.vectors, logged := v.logged } ∧
          ∀ (r : Fin 256) (k : Fin 32), v.vectors[r][k] =
            if first ≤ r.val ∧ r.val < first + 4 then
              ((accumulator s o.core a)[row]?.bind fun x => x[32 * (r.val - first) + k.val]?).getD 0#32
            else w.vectors[r][k]) ∧
      (∀ (w : Warp) (b : Batch) (rest : List Batch), s.warp? w.id = some w → w.tileBatches = b :: rest → (∀ n ∈ b.ops, ∀ o ∈ s.ops, o.id = n → o.done = true) →
        (∀ t, s.team? w.id.teamId = some t → t.st ≠ .saved) →
        ∃ u, exec (.tileBatchComplete w.id) s = .next u ∧
          u.warp? w.id = some { w with tileBatches := rest, leases := w.leases.filter fun l => !b.ops.contains l.2 } ∧
          u.ops = s.ops.filter fun o => !b.ops.contains o.id)) ∧
  ∀ (s : State) (core op : Nat) (o : MatrixOp), Performable s core op o →
    let e : Engine := ⟨.fetcher o.core, o.ctx, false⟩
    (∀ (p row col : Nat) (r : TileRecord) (sc : Option TileRecord) (tile : Tile), o.work = .tfetch [p] r row col sc → p < 16 →
      (s.opBegin o).fetchTile e (o.fmt.toNat / 2 ^ 8 % 4) r row col sc = .ok tile →
      ∃ u, exec (.tileFetchPerform core op) s = .next u ∧ u.ops = doneOps s o ∧
        ∀ i : Fin 16, (u.core o.core).slots[i] = if i.val = p then { (s.core o.core).slots[i] with tile := some tile, second := false } else (s.core o.core).slots[i]) ∧
    (∀ (a : Nat) (zero : Bool) (x : MatrixSource) (bs : List (Nat × Nat × MatrixSource)) (m : Option (TileRecord × Nat × Nat))
      (ta : Tile) (tb : List (Nat × Nat × Tile)) (idx : Option (List (List Nat))), o.work = .multiply a zero x bs m → a < 4 →
      (s.opBegin o).readOperands o x bs m = .ok (ta, tb, idx) →
      let r := multiplied o.fmt zero ta tb idx (accumulator s o.core a)
      ∃ u, exec (.matrixOperationPerform core op) s = .next u ∧ u.ops = doneOps s o ∧
        (u.warp? o.warp).map (·.nflags) = (s.warp? o.warp).map (fun w => w.nflags ||| ((r.flatten.map (·.2)).foldl (· ||| ·) 0#32 &&& 0x45#32)) ∧
        ∀ b < 4, accumulator u o.core b = if b = a then accumulatorOf (r.map fun row => row.map (·.1)) else accumulator s o.core b) ∧
    (∀ (a row col : Nat) (r : TileRecord) (scale : Option (TileRecord × Nat × Nat)), o.work = .drainmx a r row col scale →
      let block := if r.rot = 1 then 16 else if r.rot = 2 then 64 else 256
      let turned (i : Nat) : List Word × Word :=
        let x := ((accumulator s o.core a)[i]?.map (·.toList)).getD []
        if o.fmt.getLsbD 16 = true ∧ r.rot ≠ 0 then rotateRow block (low32 r.seed) ((row * 128 + i) * r.dim 0 + col * 128) x else (x, 0#32)
      let out (i : Nat) : List Nat × List Nat × Word := drainRow (o.fmt.toNat / 2 ^ 10 % 16) scale.isSome (turned i).1
      let writes := r.writes row col ((List.range 128).map fun i => (out i).1) ++
        (match scale with | none => [] | some q => q.1.writes q.2.1 q.2.2 ((List.range 128).map fun i => (out i).2.1))
      let flags := (List.range 128).foldl (fun f i => f ||| ((turned i).2 ||| (out i).2.2)) 0#32
      (s.opBegin o).engineWriteFault e (writes.map (·.1)) = none →
      ∃ u, exec (.drainmxPerform core op) s = .next u ∧ u.ops = doneOps s o ∧
        (u.warp? o.warp).map (·.nflags) = (s.warp? o.warp).map (fun w => w.nflags ||| (flags &&& 0x65#32)) ∧
        (∀ x, s.ctx? o.warp.ctx = some x → x.savedOut = false → (∃ ha ∈ (s.opBegin o).engineLines e .engineWrite (writes.map (·.1)), 2 ^ 52 ≤ ha) →
          ∃ y, u.ctx? o.warp.ctx = some y ∧ y.paused = true ∧ y.undo = [] ∧ y.undoGone = []) ∧
        ((∀ y ∈ s.l1, y.dirty = false) → u.mem = (s.engineWrite e (some o.core) writes).mem))

/-! ### Copies and prefetches (R216, R217, R231 to R239) -/

namespace Sys2Proof.Claims

/-- `u` is `b`, which is `s` after the records of the copy's sides were read, after a copy with these sides was accepted (R216, R217, R235,
R286): it is open for the warp, its token and barrier scalars are those of x and x + 1, it owns the lines that it will write, which leave the
core's L1, and the fragment has continued. -/
def CopyAccepted (s b u : State) (bar : BitVec 1) (x : Reg) (src dst : CopySide) : Prop :=
  ∃ v, Advanced s.w v ∧
    let token : Option Nat := if x = 0#7 then none else some (if s.w.legacy then (x.toNat + 64 * s.w.cur.val) % 128 else x.toNat)
    let barrier : Option Nat := if bar = 1#1 then some ((s.w.readS (x + 1#7)).toNat % 1024) else none
    let n := s.pickEngine s.w.core.part
    let e : Engine := ⟨.engine s.w.core.part n, s.w.id.ctx, false⟩
    let lines := s.engineLines e .engineWrite dst.addresses
    v = { s.w with
      slots := v.slots, loops := v.loops, openCopies := s.w.openCopies ++ [s.nextId]
      tokens := s.w.tokens ++ token.toList.map fun k => (k, s.nextId) } ∧
    u = { b.ownLines s.w.core s.w.id.ctx lines with
      nextId := s.nextId + 1, w := v
      copies := s.copies ++ [⟨s.nextId, s.w.id, s.w.core, n, token, barrier, src, dst, false, false, 0#8, 0#32, lines,
        s.engineLines e .engineRead src.addresses, s.clock⟩] }

/-- Some L1 holds the byte dirty. -/
def DirtyAt (s : State) (a : Nat) : Prop := ∃ y ∈ s.l1, y.dirty = true ∧ y.ha ≤ a ∧ a < y.ha + y.bytes.length

/-- A barrier after one more arrival (R242, R244): the last one raises the phase. -/
def arrived (b : Barrier) : Barrier := if b.arrivals + 1 = b.count then ⟨b.count, 0, b.phase + 1#16⟩ else ⟨b.count, b.arrivals + 1, b.phase⟩

/-- The warp may have another copy: fewer than 32 of its own, and fewer than 16 scratchpad destinations on its core. -/
def CopyRoom (s : State) (dst : CopySide) : Prop :=
  (s.copies.filter fun c => c.warp == s.w.id).length < 32 ∧ (dst.spadRange.isSome = true → (s.copies.filter fun c => c.core == s.w.core && c.dst.spadRange.isSome).length < 16)

end Sys2Proof.Claims

/-- R215 to R217, R232 to R237, R239: `cpy` and `cpyg` whose sides pass their checks are accepted, and the warp goes on; `tcommit` and `cpcommit` close
the open operations and copies into a batch; copy batches whose copies have all completed leave from the front; `pft` and `pref` change no
register and no byte of memory, but that a `pref` into L1 performs the core's pending stores to its sectors first (R281) and may send home a
dirty private sector that it puts out. -/
def Obligations.CopiesCommitsPrefetches : Prop :=
  (∀ (s : State) (b : BitVec 1) (d : BitVec 2) (x y z : Reg) (src dst : CopySide), CopyRoom s dst →
      (s.precheck (.cpy b d x y z) = none → s.copySides d y z = .ok (src, dst) →
        ∃ u, exec (.cpy b d x y z) s = .next u ∧ CopyAccepted s (s.recordReads s.w.id.ctx (s.copyHandles d y z)) u b x src dst) ∧
      (s.precheck (.cpyg b d x y z) = none → Unleased s (.cpyg b d x y z) → s.gatherSides d y z = .ok (src, dst) →
        ∃ u, exec (.cpyg b d x y z) s = .next u ∧ CopyAccepted s s u b x src dst)) ∧
  ∀ (s : State),
    (s.precheck .tcommit = none → s.w.tileBatches.length < 15 →
      ∃ v, Completed s v ∧ exec .tcommit s = .next { s with w := { v with tileBatches := s.w.tileBatches ++ [⟨s.w.openOps⟩], openOps := [] } }) ∧
    (s.precheck .cpcommit = none → s.w.copyBatches.length < 15 → s.w.present = true →
      ∃ v, Completed s v ∧ exec .cpcommit s = .next { s with w := { v with
        openCopies := [], copyBatches := (s.w.copyBatches ++ [(⟨s.w.openCopies⟩ : Batch)]).dropWhile fun b => !(b.ops.any fun k => s.copies.any fun c => c.id == k) } }) ∧
    (∀ y : Reg, s.precheck (.pft y) = none →
      ∃ u v, exec (.pft y) s = .next u ∧ Completed s v ∧
        u = { s with w := v, l2 := u.l2, marks := u.marks, sluice := { s.sluice with evictionFailures := u.sluice.evictionFailures }, freeIx := u.freeIx }) ∧
    (∀ (l : BitVec 2) (a : Reg), s.precheck (.pref l a) = none → Unleased s (.pref l a) →
      (l ≠ 1#2 →
        ∃ u v, exec (.pref l a) s = .next u ∧ Completed s v ∧
          u = { s with w := v, l2 := u.l2, marks := u.marks, sluice := { s.sluice with evictionFailures := u.sluice.evictionFailures }, freeIx := u.freeIx }) ∧
      (l = 1#2 → s.mem.wf = true → (∀ p ∈ s.stores, p.core = s.w.core → p.warp.ctx = s.w.id.ctx → p.lanes = []) →
        ∃ u v, exec (.pref l a) s = .next u ∧ Completed s v ∧ u.w = v ∧ u.rest = s.rest ∧ u.stores = s.stores ∧
          ∀ x, ¬ DirtyAt s x → u.mem.read x = s.mem.read x))

namespace Sys2Proof.Claims

/-- The pages of the team that hold the bytes from an offset are resident, and full. -/
def ResidentAt (t : Team) (off len : Nat) : Prop :=
  ∀ o, off ≤ o → o < off + len → (t.page (o / 2048)).st = .resident ∧ (t.page (o / 2048)).bytes.length = 2048

end Sys2Proof.Claims

/-- R216, R217, R233, R235, R236, R242, R328: a copy that may be performed moves all its data, into memory by its engine's path and into the
resident pages of its team's scratchpad, and where it writes memory of the host or a peer its context takes a checkpoint (R293, read with R335:
log 66); once performed it completes: its token takes the code (while a handler runs, in the bank that its
entry kept where the token lies there), its flags reach the warp, it arrives at its barrier, and batches without copies leave. A copy whose
source or destination meets a fault moves nothing here: R236 lets each destination sector hold its new or its earlier data, and that all of
them keep their earlier data is the model's choice (log 65). Corners that no rule settles are the model's (log 28). -/
def Obligations.CopiesComplete : Prop :=
  ∀ (s : State) (n : Nat) (c : Copy),
    (s.copies.find? (fun x => x.id == n) = some c → s.copyReady c = true → NothingAwaits s → (∀ y ∈ s.l1, y.dirty = false) →
      ∀ t, s.team? c.warp.teamId = some t →
      let e : Engine := ⟨.engine c.core.part c.engine, c.warp.ctx, false⟩
      let read := s.engineTouch e c.src.addresses
      let marked (code : Code) (flags : Word) : List Copy :=
        s.copies.map fun x => if x.id = n then { x with performed := true, code := code, flags := flags } else x
      let failed (code : Code) : Prop := ∃ u t', exec (.copyPerform n) s = .next u ∧ u.copies = marked code 0#32 ∧ u.mem = read.mem ∧
        u.team? c.warp.teamId = some t' ∧ ∀ k, t'.page k = { t.page k with used := (t'.page k).used }
      (∀ code va, s.copyData c t = .error (code, va) → failed code) ∧
      ∀ d : CopyData, s.copyData c t = .ok d →
        (∀ code va, s.engineWriteFault e (d.global.map (·.1)) = some (code, va) → failed code) ∧
        (s.engineWriteFault e (d.global.map (·.1)) = none → (∀ q ∈ d.spad, ResidentAt t q.1 q.2.length) →
          ∃ u t', exec (.copyPerform n) s = .next u ∧ u.copies = marked 0#8 d.flags ∧ u.team? c.warp.teamId = some t' ∧
            u.mem = (read.engineWrite e (if s.early c then none else some c.core) d.global).mem ∧
            (∀ x, s.ctx? c.warp.ctx = some x → x.savedOut = false → (∃ ha ∈ read.engineLines e .engineWrite (d.global.map (·.1)), 2 ^ 52 ≤ ha) →
              ∃ y, u.ctx? c.warp.ctx = some y ∧ y.paused = true ∧ y.undo = [] ∧ y.undoGone = []) ∧
            ∀ o, spadByte t' o =
              match (d.spad.filter fun q => decide (q.1 ≤ o) && decide (o < q.1 + q.2.length)).getLast? with
              | some q => q.2.getD (o - q.1) 0#8
              | none => spadByte t o)) ∧
    (s.copies.find? (fun x => x.id == n && x.performed) = some c → ∀ w, s.warp? c.warp = some w →
      let code : Code :=
        match c.barrier, s.team? c.warp.teamId with
        | some k, some t => if (t.barriers[k]?.any fun b => decide (0 < b.count)) || c.code != 0#8 then c.code else 0x1B#8
        | _, _ => c.code
      let banked (k : Nat) : Bool := w.handler.isSome && decide (112 ≤ k % 128)
      ∃ u undo, exec (.copyComplete n) s = .next u ∧ u.copies = s.copies.filter (fun x => x.id != n) ∧
        u.warp? c.warp = some { w with
          logged := undo
          nflags := w.nflags ||| c.flags
          tokens := w.tokens.filter fun k => k.2 != n
          scalars := match c.token with
            | some k => if banked k then w.scalars else w.scalars.set (Fin.ofNat 128 k) (BitVec.ofNat 32 code.toNat)
            | none => w.scalars
          handler := match c.token, w.handler with
            | some k, some h => if banked k then some { h with bank := h.bank.set! (k % 128 - 112) (BitVec.ofNat 32 code.toNat) } else some h
            | _, h => h
          copyBatches := w.copyBatches.dropWhile fun b => !(b.ops.any fun k => u.copies.any fun x => x.id == k) } ∧
        ∀ t k b, c.barrier = some k → s.team? c.warp.teamId = some t → t.barriers[k]? = some b → 0 < b.count →
          (u.team? c.warp.teamId).map (·.barriers) =
            some (t.barriers.set k (arrived b)))

/-! ### Waiting, fences, barriers (R220, R240 to R244) -/

namespace Sys2Proof.Claims

/-- The warp has made an irrevocable action (R220, R335): it waits for the checkpoint of its context that has begun. -/
def TookCheckpoint (s u : State) : Prop := u.w.awaitCheckpoint = true ∧ ∀ c ∈ u.ctxs, c.id = s.w.id.ctx → c.paused = true ∧ c.undo = []

/-- The L1 without the clean global sectors of a core (R284). -/
def acquired (s : State) : List L1Sector := s.l1.filter fun x => x.core != s.w.core || x.priv

end Sys2Proof.Claims

/-- R240, R241, R284, R335: `wait` goes on once no more loads, stores, copy batches and tile batches are outstanding than its fields say, and waits
otherwise; a release `fence` above team scope waits for the warp's stores, an acquire for its loads; an acquire then drops the clean global
sectors of the core's L1, and a release at domain or system scope is irrevocable. -/
def Obligations.WaitsAndFences : Prop :=
  ∀ (s : State),
    (∀ (l st : BitVec 6) (c t : BitVec 4), s.precheck (.wait l st c t) = none →
      let met := (s.w.loads.filter fun x => x.kind != .returnWords).length ≤ l.toNat ∧ s.outStores s.w ≤ st.toNat ∧ s.w.copyBatches.length ≤ c.toNat ∧ s.w.tileBatches.length ≤ t.toNat
      (met → ∃ v, Completed s v ∧ exec (.wait l st c t) s = .next { s with w := v }) ∧
      (¬ met → exec (.wait l st c t) s = .next { s with w := { s.w with hold := s.w.hold.set s.w.cur (some .waitCount) } })) ∧
    (∀ k sc : BitVec 2, s.precheck (.fence k sc) = none →
      let rel := k.getLsbD 1 = true
      let acq := k.getLsbD 0 = true
      (sc = 0#2 → ∃ v, Completed s v ∧ exec (.fence k sc) s = .next { s with w := v }) ∧
      (sc ≠ 0#2 → rel → s.outStores s.w ≠ 0 → exec (.fence k sc) s = .next { s with w := { s.w with hold := s.w.hold.set s.w.cur (some .storeCount) } }) ∧
      (sc ≠ 0#2 → (rel → s.outStores s.w = 0) → acq → (∃ x ∈ s.w.loads, x.kind ≠ .returnWords) →
        exec (.fence k sc) s = .next { s with w := { s.w with hold := s.w.hold.set s.w.cur (some .loadCount) } }) ∧
      (sc ≠ 0#2 → (rel → s.outStores s.w = 0) → (acq → ∀ x ∈ s.w.loads, x.kind = .returnWords) →
        ((rel → sc = 1#2) → ∃ v, Completed s v ∧ exec (.fence k sc) s = .next { s with w := v, l1 := if k.getLsbD 0 then acquired s else s.l1 }) ∧
        (rel → sc ≠ 1#2 → s.w.present = true →
          ∃ u v, exec (.fence k sc) s = .next u ∧ Completed s v ∧ u.w = { v with awaitCheckpoint := true } ∧ TookCheckpoint s u)))

/-- R242 to R244: `bari` gives a barrier without arrivals its count and phase 0 and raises 0x1B for a count of 0 or above 65,535, arrivals that wait, or a
barrier that the variant does not have; `bara` gives the phase seen and arrives, the last arrival raising the phase; `barw` waits while the
phase is the one given; `bart` tells whether it differs. A barrier without a count raises 0x1B. -/
def Obligations.Barriers : Prop :=
  ∀ (s : State) (t : Team) (n : BitVec 10) (a : Reg), s.team = some t →
    let fault := State.raise s { code := 0x1B#8, mask := s.w.frag.mask }
    (s.precheck (.bari n a) = none →
      (∀ x, t.barriers[n.toNat]? = some x → x.arrivals = 0 → 0 < (s.w.readS a).toNat → (s.w.readS a).toNat ≤ 65535 →
        ∃ v, Completed s v ∧ exec (.bari n a) s = .next { s with
          w := v, teams := s.teams.map fun y => if y.id = t.id then { y with barriers := y.barriers.set n.toNat ⟨(s.w.readS a).toNat, 0, 0#16⟩ } else y }) ∧
      (t.barriers[n.toNat]? = none ∨ (s.w.readS a).toNat = 0 ∨ 65535 < (s.w.readS a).toNat ∨ (∃ x, t.barriers[n.toNat]? = some x ∧ x.arrivals ≠ 0) →
        exec (.bari n a) s = .next fault)) ∧
    (∀ x, t.barriers[n.toNat]? = some x → 0 < x.count →
      (s.precheck (.bara n a) = none →
        ∃ u, exec (.bara n a) s = .next u ∧
          ScalarResult { s with teams := s.teams.map fun y => if y.id = t.id then { y with barriers := y.barriers.set n.toNat (arrived x) } else y } u
            (one a (low32 x.phase.toNat)) 0#32) ∧
      (s.precheck (.barw n a) = none →
        (low32 x.phase.toNat ≠ s.w.readS a → ∃ v, Completed s v ∧ exec (.barw n a) s = .next { s with w := v }) ∧
        (low32 x.phase.toNat = s.w.readS a → exec (.barw n a) s = .next { s with w := { s.w with hold := s.w.hold.set s.w.cur (some .barrier) } })) ∧
      (∀ b : Reg, s.precheck (.bart n a b) = none →
        ∃ u, exec (.bart n a b) s = .next u ∧ ScalarResult s u (one a (truth (decide (low32 x.phase.toNat ≠ s.w.readS b)))) 0#32)) ∧
    ((∀ x, t.barriers[n.toNat]? = some x → x.count = 0) →
      (s.precheck (.bara n a) = none → exec (.bara n a) s = .next fault) ∧ (s.precheck (.barw n a) = none → exec (.barw n a) s = .next fault) ∧
      (∀ b : Reg, s.precheck (.bart n a b) = none → exec (.bart n a b) s = .next fault))

/-! ### Nested grids, work graphs, tasks, mapping (R245 to R254) -/

/-- R245, R258, R263: warp 0's `launch` gives the reason why there can be no grid (a kernel that it
has looked at leaves what reading it leaves, R68), or creates one: its number, which no live grid
of the context has, goes to s[c], its frame and fields are those of the operands, the parent
counts it and the team's join set holds it; the creation is irrevocable. Another warp raises 0x19.
R246, R284: warp 0's `joinw` waits until every child of the join set has retired, then empties the
set and gives the number of children that failed or were killed, at most 65,535, in bits 31:16,
and the fault code of the one that failed first in bits 15:0; it acquires at device scope: the
clean global sectors of the core's L1 are dropped. The number of a new grid is the model's free value (log 2). -/
def Obligations.LaunchesAndJoins : Prop :=
  (∀ (s : State) (d c f : Reg) (p : BitVec 1), s.precheck (.launch d c f p) = none →
      let teams := scalarN s.w c 0
      let size := scalarN s.w f 0
      let kernel := s.kernel s.w.id.ctx (pairOf s.w d).toNat
      let read := s.unitReads s.w.id.ctx (s.kernelReads s.w.id.ctx 5 (pairOf s.w d).toNat)
      let refused (b : State) (e : Word) : Prop := ∃ u, exec (.launch d c f p) s = .next u ∧ ScalarResult b u (one c e) 0#32
      (s.w.id.warp ≠ 0 → exec (.launch d c f p) s = .next (s.raise { code := 0x19#8, mask := s.w.frag.mask })) ∧
      (s.w.id.warp = 0 →
        (9 ≤ s.w.level → refused s 0x80000002#32) ∧
        (s.w.level < 9 → teams = 0 → refused s 0x80000003#32) ∧
        (s.w.level < 9 → teams ≠ 0 → 65472 < size → refused s 0x80000004#32) ∧
        (s.w.level < 9 → teams ≠ 0 → size ≤ 65472 → kernel = none → refused read 0x80000005#32) ∧
        (∀ k, s.w.level < 9 → teams ≠ 0 → size ≤ 65472 → kernel = some k → p = 1#1 → s.neverPlaced s.w.core.part s.w.id.ctx teams k.variants = true →
          refused read 0x80000006#32) ∧
        (∀ k, s.w.level < 9 → teams ≠ 0 → size ≤ 65472 → kernel = some k → (p = 1#1 → s.neverPlaced s.w.core.part s.w.id.ctx teams k.variants = false) →
          s.freeFrame s.w.id.ctx (frameClass size) = none → refused read 0x80000001#32) ∧
        (∀ k frame g t, s.w.level < 9 → teams ≠ 0 → size ≤ 65472 → kernel = some k →
          (p = 1#1 → s.neverPlaced s.w.core.part s.w.id.ctx teams k.variants = false) → s.freeFrame s.w.id.ctx (frameClass size) = some frame →
          s.grid = some g → s.team = some t → s.outStores s.w = 0 → s.w.present = true → s.grids.length < 2 ^ 24 - 2 →
          ∃ u n, exec (.launch d c f p) s = .next u ∧ (∀ x ∈ s.grids, x.ctx = s.w.id.ctx → x.id ≠ n) ∧ 1 ≤ n ∧ n < 2 ^ 31 ∧
            (∀ r : Reg, u.w.readS r = if r = 0#7 then 0#32 else if r = c then low32 n else s.w.readS r) ∧
            (∃ x ∈ u.grids, x.ctx = s.w.id.ctx ∧ x.id = n ∧ x.parent = some g.id ∧ x.launcher = some s.w.id.team ∧ x.kernel = (pairOf s.w d).toNat ∧
              x.variants = k.variants ∧ x.teams = teams ∧ x.teamsLive = teams ∧ x.children = 0 ∧ x.level = s.w.level + 1 ∧ x.frame = frame ∧
              x.cls = frameClass size ∧ x.status = 1 ∧ x.coop = decide (p = 1#1)) ∧
            u.grid = some { g with children := g.children + 1 } ∧ (u.team.map (·.joinSet)) = some (t.joinSet ++ [⟨n, none⟩]) ∧ TookCheckpoint s u))) ∧
  ∀ (s : State) (r : Reg) (t : Team), s.precheck (.joinw r) = none → s.team = some t →
    (s.w.id.warp ≠ 0 → exec (.joinw r) s = .next (s.raise { code := 0x19#8, mask := s.w.frag.mask })) ∧
    (s.w.id.warp = 0 → (∀ x ∈ t.joinSet, x.outcome.isSome = true) →
      let failed := (t.joinSet.filter fun x => x.outcome.any fun o => o.1 == 0x11 || o.1 == 0x12).length
      ∃ u, exec (.joinw r) s = .next u ∧ (u.team.map (·.joinSet)) = some [] ∧ u.w.joining = none ∧ u.l1 = acquired s ∧
        (∀ q : Reg, q ≠ r → u.w.readS q = s.w.readS q) ∧
        (r ≠ 0#7 → (u.w.readS r).toNat / 2 ^ 16 = min failed 65535 ∧
          ((∀ x ∈ t.joinSet, ∀ o, x.outcome = some o → o.1 ≠ 0x11) → (u.w.readS r).toNat % 2 ^ 16 = 0) ∧
          ∀ x ∈ t.joinSet, ∀ code order, x.outcome = some (0x11, code, order) →
            (∀ y ∈ t.joinSet, ∀ o, y.outcome = some o → o.1 = 0x11 → y = x ∨ order < o.2.2) → (u.w.readS r).toNat % 2 ^ 16 = code.toNat)) ∧
    (s.w.id.warp = 0 → (∃ x ∈ t.joinSet, x.outcome = none) →
      ∃ u, exec (.joinw r) s = .next u ∧ u.w.hold[s.w.cur] = some .children ∧ u.w.scalars = s.w.scalars ∧ u.w.frag = s.w.frag)

/-- R247 to R249, R315, R318: `lxrd` reads a display register; `enq` appends the records of the active threads in ascending order while the
node's gatherer of 256 has room, and marks in the predicate the threads that it turned away; `depdec` lowers a task's count and makes the task ready at 0. -/
def Obligations.GraphsAndTasks : Prop :=
  ∀ (s : State),
    (∀ (l : BitVec 4) (d : Reg), s.precheck (.lxrd l d) = none →
      (l.toNat ≤ s.w.level → l.toNat ≤ 9 → ∃ u, exec (.lxrd l d) s = .next u ∧ ScalarResult s u (two d ((s.w.display[l.toNat]?.map (·.base)).getD 0#64)) 0#32) ∧
      (s.w.level < l.toNat ∨ 9 < l.toNat → exec (.lxrd l d) s = .next (s.raise { code := 0x0E#8, mask := s.w.frag.mask }))) ∧
    (∀ (p : Pred) (v n : Reg) (x : Ctx) (node : Node), s.precheck (.enq p v n) = none → Unleased s (.enq p v n) → s.outStores s.w = 0 → s.w.present = true →
      s.ctx? s.w.id.ctx = some x → x.nodes.find? (fun y => y.n == scalarN s.w n 0) = some node →
      let got := (active s.w).take (256 - node.records.length)
      let lost := (active s.w).drop (256 - node.records.length)
      ∃ u y node', exec (.enq p v n) s = .next u ∧ u.ctx? s.w.id.ctx = some y ∧ y.nodes.find? (fun z => z.n == scalarN s.w n 0) = some node' ∧
        node'.records = node.records ++ got.map (fun k => (s.clock, (List.range 16).map fun j => storedByte s.w v k j)) ∧
        (∀ k : Fin 32, (u.w.readP p).getLsbD k.val = if on s.w k then decide (k ∈ lost) else (s.w.readP p).getLsbD k.val) ∧
        (got ≠ [] → TookCheckpoint s u) ∧ (got = [] → u.w.awaitCheckpoint = s.w.awaitCheckpoint)) ∧
    (∀ (r : Reg) (x : Ctx) (base size lvl : Nat) (b : List Byte), s.precheck (.depdec r) = none → s.outStores s.w = 0 → s.w.present = true →
      s.ctx? s.w.id.ctx = some x → x.taskTable = some (base, size, lvl) → scalarN s.w r 0 < size →
      s.unitRead s.w.id.ctx (base + 32 * scalarN s.w r 0) 32 = .ok b →
      (leAt b 16 2 = 0 → exec (.depdec r) s = .next (s.raise { code := 0x12#8, mask := s.w.frag.mask })) ∧
      (leAt b 16 2 ≠ 0 →
        let q := s.unitWrite s.w.id.ctx (base + 32 * scalarN s.w r 0 + 16)
          (leBytes 2 (leAt b 16 2 - 1) ++ leBytes 1 (leAt b 18 1) ++ leBytes 1 (if leAt b 16 2 = 1 then 2 else leAt b 19 1))
        q.2 = 0#8 → ∃ u y, exec (.depdec r) s = .next u ∧ u.ctx? s.w.id.ctx = some y ∧ TookCheckpoint s u ∧
          ((∀ z ∈ s.l1, z.dirty = false) → u.mem = q.1.mem) ∧
          (leAt b 16 2 = 1 → (scalarN s.w r 0, leAt b 18 1 % 16, s.clock) ∈ y.ready) ∧ (leAt b 16 2 ≠ 1 → y.ready = x.ready)))

/-- R252, R254, R321: `swpt` raises 0x01 at a point that the variant does not declare, goes on where
no switch was asked for, and holds the whole warp at a point to which a request applies, its open
work closed; `mappg` goes on where the page is mapped, and otherwise links a frame of its pool, all
zeros but for the link itself, with the pool's attributes. A frame address of a pool that is not
that of a page below 2^52 is rounded down to one (log 74). -/
def Obligations.SwitchPointsAndMapping : Prop :=
  ∀ (s : State),
    (∀ (n : BitVec 8) (t : Team) (old : Variant), s.precheck (.swpt n) = none → s.team = some t → s.variantOf t t.variant = some old →
      (old.point n.toNat = none → exec (.swpt n) s = .next (s.raise { code := 0x01#8, mask := s.w.frag.mask })) ∧
      (old.point n.toNat ≠ none → t.request = none → ∃ v, Completed s v ∧ exec (.swpt n) s = .next { s with w := v }) ∧
      (∀ r new, old.point n.toNat ≠ none → t.request = some r → s.variantOf t r.target = some new → requestApplies old new n.toNat = true →
        s.w.frag.mask = ~~~s.w.exited → r.point = none → s.w.present = true →
        ∃ u, exec (.swpt n) s = .next u ∧ u.w.atSwitch = some n.toNat ∧ u.w.openOps = [] ∧ u.w.openCopies = [] ∧ u.w.frag = s.w.frag ∧
          u.team = some { t with request := some { r with point := some (n.toNat, s.clock), arrived := r.arrived ++ [s.w.id.warp] } })) ∧
    (∀ a p : Reg, s.precheck (.mappg a p) = none →
      let va := (pairOf s.w a).toNat
      (∀ leaf, va < 2 ^ 57 → s.walk s.w.id.ctx va = .ok leaf → (∃ x, s.ctx? s.w.id.ctx = some x) →
        ∃ v, Completed s v ∧ exec (.mappg a p) s = .next { s with w := v }) ∧
      (∀ (x : Ctx) (q : PagePool) (frame : Nat) (rest : List Nat) (ha entry : Nat), va < 2 ^ 57 → s.walk s.w.id.ctx va = .error 0x08#8 →
        s.ctx? s.w.id.ctx = some x → x.pagePools.find? (fun y => y.n == p.toNat) = some q → q.frames = frame :: rest → s.mem.wf = true →
        let attrs := (if q.write then 2 else 0) + (if q.exec then 4 else 0) + (if q.super then 8 else 0)
        mapPlan s va attrs 5 x.pageTable false (frame :: rest) = some ([(ha, entry)], rest) →
        let f := frame / 4096 * 4096 % 2 ^ 52
        s.owns s.w.id.ctx f = true → (∀ k < 64, s.storeCode s.w.id.ctx (f + 64 * k) = 0#8) → s.storeCode s.w.id.ctx ha = 0#8 →
        (ha < 2 ^ 52 → s.owns s.w.id.ctx ha = true) → ha % 8 = 0 →
        ∃ u y, exec (.mappg a p) s = .next u ∧ u.mem.readNat ha 8 = f + attrs + 1 ∧ (∀ b, f ≤ b → b < f + 4096 → b < ha ∨ ha + 8 ≤ b → u.mem.read b = 0#8) ∧
          u.ctx? s.w.id.ctx = some y ∧ (∃ z ∈ y.pagePools, z.n = p.toNat ∧ z.frames = rest)))

/-! ### Events of warps and fragments (R16, R17, R19 to R23, R33, R102, R255, R264) -/

/-- R21 to R23, R255: an active warp that waits for something long changes places with the ready warp
of its shuttle that has been pending longest, and so does one whose count of cycles in which such a
warp waits and its context is scheduled reaches 16,384;
on a shuttle without an active warp that pending warp becomes active; a sleep ends at its time.
Looking at readiness after each issue and each event is the model's reading (log 30). -/
def Obligations.WarpsExchange : Prop :=
  ∀ (s : State) (id : WarpId) (w : Warp), s.warp? id = some w →
    (∀ p, s.nextPending w.core w.shuttle = some p → s.warp? p.id = some p → p.id ≠ id → w.active = true →
      let left (x : Warp) : Warp := { x with active := false, pendingSince := s.nextId, yielded := Vector.replicate 2 false }
      let came (x : Warp) : Warp := { x with active := true, count := 0 }
      (s.longLatency w = true → ∃ u, exec (.warpExchange id) s = .next u ∧ u.warp? id = some (left w) ∧ u.warp? p.id = some (came p)) ∧
      (s.scheduled id.ctx = true →
        let n := 16384 - w.count
        ∃ u, exec (.exchangeCountExpiry id) s = .next u ∧ u.clock = s.clock + n ∧ (s.aged n w).count = w.count + n ∧
          u.warp? id = some (left (s.aged n w)) ∧ u.warp? p.id = some (came (s.aged n p)))) ∧
    ((∀ x ∈ s.warps, x.core = w.core → x.shuttle = w.shuttle → x.active = false) → (s.nextPending w.core w.shuttle).map (·.id) = some id →
      ∃ u, exec (.warpActivation id) s = .next u ∧ u.warp? id = some { w with active := true, count := 0 }) ∧
    (∀ d, w.sleepUntil = some d → s.scheduled id.ctx = true →
      ∃ u, exec (.sleepExpiry id) s = .next u ∧ u.clock = max s.clock d ∧ u.warp? id = some { s.aged (d - s.clock) w with sleepUntil := none })

namespace Sys2Proof.Claims

/-- A fragment that fits the fields of a split-stack entry (R19), at no reed slot (R97). -/
def Fits (f : Fragment) : Prop := f.pc.toNat < 2 ^ 57 ∧ f.pc.toNat % 4 = 0 ∧ f.pc.toNat / 4 % 8 ≠ 0 ∧ f.fmt.toNat < 2 ^ 17 ∧ ∀ e, f.record = some e → e < 64

end Sys2Proof.Claims

/-- R16, R19, R20, R33: a fragment at its join dissolves, the last one fusing the record's threads
that have not exited at the join; a spilled entry that was read becomes the fragment that was
spilled; a rotation, 2,048 cycles of the warp's residence after the last, puts the older live
fragment into the entry of the head of the spill queue, at its tail, and the head into the slot.
When each of these events comes is a choice of the model's agenda (log 1). That an entry is free
once SPILL_ENTRY_READ completes is read from R20 and R397 by inference (log 54); that a fragment
rotated out leaves its latch and its wait is the model's choice (log 55). -/
def Obligations.FragmentsMeet : Prop :=
  ∀ (s : State) (id : WarpId) (w : Warp) (slot : Fin 2), s.warp? id = some w → w.super = false → w.stopped = false →
    (∀ e parent join full fmt count, w.slots[slot].st = .live → w.slots[slot].frag.record = some e → w.slots[slot].frag.pc = join →
      w.split[e]? = some (.record parent join full fmt count) → (∀ q : Fin 2, w.spill[q] = []) → (∀ l : Fin 4, w.loops[l].live = false) →
      (1 < count → ∃ u, exec (.fragmentArrival id slot) s = .next u ∧ u.warp? id = some { settled w slot with
        slots := w.slots.set slot ⟨.empty, Fragment.none⟩, split := w.split.setIfInBounds e (.record parent join full fmt (count - 1)) }) ∧
      (count ≤ 1 → full &&& ~~~w.exited ≠ 0#32 → ∃ u, exec (.fragmentArrival id slot) s = .next u ∧ u.warp? id = some { settled w slot with
        slots := w.slots.set slot ⟨.live, ⟨join, full &&& ~~~w.exited, fmt, parent, s.clock⟩⟩, split := w.split.setIfInBounds e .free })) ∧
    (∀ e f next r, w.slots[slot].st = .reading e → Fits f → (∀ n, next = some n → n < 64) →
      let read : List LaneReq := [⟨0, w.entryVa e, 0, 0, 16⟩]
      s.privWaits w.asEvent .load read = none → (s.privDrain w .load read).privRead w (w.entryVa e) 16 = (r, 0#8, splitBytes (.spilled f) next) →
      r.warp? id = some w →
      ∃ u, exec (.spillEntryRead id slot) s = .next u ∧ u.warp? id = some { settled w slot with
        split := w.split.setIfInBounds e .free, slots := w.slots.set slot ⟨.live, { f with entered := w.slots[slot].frag.entered }⟩ }) ∧
    (∀ (wave : Fin 2) e f r, w.spill[wave] = [e] → w.olderSlot wave = some slot → Fits f → (∀ t, s.team? id.teamId = some t → t.st ≠ .saved) →
      let write : List LaneReq := [⟨0, w.entryVa e, 0, 0, 16⟩]
      let n := 2048 - w.rotation[wave]
      let v := s.aged n w
      s.privWaits w.asEvent .store write = none →
      ((s.passTo (s.clock + n)).privDrain w .store write).privRead w (w.entryVa e) 16 = (r, 0#8, splitBytes (.spilled f) none) →
      r.warp? id = some v → r.privWriteCode w (w.entryVa e) 16 = 0#8 →
      ∃ u, exec (.spillRotation id wave) s = .next u ∧ u.warp? id = some { settled v slot with
        split := v.split.setIfInBounds e (.spilled w.slots[slot].frag), spill := v.spill.set wave [e]
        rotation := v.rotation.set wave 0, hold := v.hold.set slot none, slots := v.slots.set slot ⟨.live, { f with entered := s.clock + n }⟩ })

namespace Sys2Proof.Claims

/-- First byte of the backing of page n of a team (R85). -/
def backingOf (s : State) (t : Team) (n : Nat) : Nat := ((s.ctx? t.id.ctx).map (·.backing)).getD 0 + t.slot * 2 ^ 21 + n * 2048

/-- The backing page at base is whole lines of the address space. -/
def BackingPlace (base : Nat) : Prop := base % 64 = 0 ∧ base + 2048 ≤ 2 ^ 57

/-- Each sector of the backing page at base translates into device DRAM: sector i at H i (R85). `write` asks for the write bit too. -/
def BackingMapped (s : State) (ctx base : Nat) (write : Bool) (H : Nat → Nat) : Prop :=
  ∀ i < 32, ∃ l, s.walk ctx (base + 64 * i) = .ok l ∧ l.home (base + 64 * i) = H i ∧ isDram (H i) = true ∧ (write = true → l.pte.getLsbD 1 = true)

/-- Page x of a core is the one to be evicted (R84): the least recently used of those that are not pinned. -/
def Victim (s : State) (core : CoreId) (x : TeamId × Page) : Prop :=
  x ∈ s.physicalPages core ∧ s.pinned x.1 x.2.n = false ∧
    ∀ y ∈ s.physicalPages core, s.pinned y.1 y.2.n = false → y = x ∨ x.2.used < y.2.used

end Sys2Proof.Claims

/-- R17, R82 to R85, R102, R175, R264: a page that an access waits for is paged in, all zeros at its
first touch, and from its backing otherwise: sector by sector, with zeros and a mark where the sector meets 0x0A, 0x15 or 0x16, and 0x09
everywhere where the backing does not translate, or the code of an earlier loss. Where no physical page is free the least recently used that is
not pinned gives way: one never written is in the zero state again, a clean one is backed, a dirty one is written to its backing, or its loss
is recorded. A block of code is fetched into the core's instruction buffer; a warp whose work is
over leaves, while its team has others. When each of these events comes is a choice of the model's
agenda (log 1). -/
def Obligations.PagesBlocksRetirements : Prop :=
  ∀ (s : State),
    (∀ (t : Team) (n : Nat), s.team? t.id = some t → s.pageWanted t.id n = true → (t.page n).st = .zero → (s.physicalPages t.core).length < 256 →
      ∃ u v, exec (.scratchpadPageInComplete t.id n) s = .next u ∧ u.team? t.id = some v ∧ (v.page n).st = .resident ∧
        (v.page n).bytes = List.replicate 2048 0#8 ∧ (v.page n).marks = [] ∧ u.mem = s.mem) ∧
    (∀ (t : Team) (n : Nat), s.team? t.id = some t → s.pageWanted t.id n = true → (t.page n).st = .backed → (s.physicalPages t.core).length < 256 →
      (t.page n).marks = [] → NothingAwaits s →
      let base := backingOf s t n
      BackingPlace base →
      ∃ u v, exec (.scratchpadPageInComplete t.id n) s = .next u ∧ u.team? t.id = some v ∧ (v.page n).st = .resident ∧ (v.page n).lost = none ∧
        (v.page n).dirty = false ∧ (v.page n).bytes.length = 2048 ∧
        (∀ H, (t.page n).lost = none → BackingMapped s t.id.ctx base false H →
          let code (i : Nat) : Code := s.sectorCode t.id.ctx (H i) 64
          (v.page n).marks = ((List.range 32).filter fun i => code i != 0#8).map (fun i => (i, code i)) ∧
          ∀ i < 32, ∀ j < 64, (v.page n).bytes[64 * i + j]? = some (if code i = 0#8 then s.mem.read (H i + j) else 0#8)) ∧
        ∀ c, ((t.page n).lost = some c ∧ c ∈ [0x09#8, 0x0A#8] ∨ (t.page n).lost = none ∧ c = 0x09#8 ∧ ∀ H, ¬ BackingMapped s t.id.ctx base false H) →
          (v.page n).marks = (List.range 32).map (fun i => (i, c)) ∧ (v.page n).bytes = List.replicate 2048 0#8) ∧
    (∀ (t t' : Team) (n : Nat) (p : Page), s.team? t.id = some t → s.pageWanted t.id n = true → (t.page n).st = .zero →
      256 ≤ (s.physicalPages t.core).length → Victim s t.core (t'.id, p) → s.team? t'.id = some t' → t'.page p.n = p → s.mem.wf = true → s.marks = [] →
      let base := backingOf s t' p.n
      let ctx := t'.id.ctx
      ∃ u v v', exec (.scratchpadPageInComplete t.id n) s = .next u ∧ u.team? t.id = some v ∧ (v.page n).st = .resident ∧
        (v.page n).bytes = List.replicate 2048 0#8 ∧ (v.page n).marks = [] ∧ u.team? t'.id = some v' ∧
        let g := v'.page p.n
        (p.dirty = false → g.st = (if p.filled then .backed else .zero) ∧ g.marks = (if p.filled then p.marks else []) ∧ u.mem = s.mem) ∧
        (p.dirty = true → g.st = .backed) ∧
        (p.dirty = true → p.bytes.length = 2048 → base % 2048 = 0 → ∀ H, BackingMapped s ctx base true (fun i => H + 64 * i) →
          (∀ i < 32, Reaches s ctx (base + 64 * i) 64 (H + 64 * i) ((List.range 32).map fun k => (H + 64 * k) / 64)) →
          g.lost = none ∧ WrittenAt s u ((List.range 32).flatMap fun i => walkReads s ctx (base + 64 * i) 5 (s.tableOf ctx)) [(H, p.bytes)]) ∧
        (p.dirty = true → p.bytes.length = 2048 → BackingPlace base →
          ((∀ H, ¬ BackingMapped s ctx base true H) → g.lost = some 0x09#8 ∧ u.mem = s.mem) ∧
          ∀ H, BackingMapped s ctx base true H → (∃ i < 32, s.owns ctx (H i) = false ∧ s.l2Line ctx (H i) = none) →
            g.lost = some 0x0A#8 ∧ u.mem = s.mem)) ∧
    (∀ (id : WarpId) (w : Warp) (slot : Fin 2) (ha : Nat), s.warp? id = some w → w.id = id → w.slots[slot].st = .live → w.stopped = false →
      let pc := w.slots[slot].frag.pc
      s.codeBlock w pc = none → s.translate (.core w.core) id.ctx .fetch w.super (pc.toNat / 32 * 32) = .ok ha → s.sectorCode id.ctx ha 32 = 0#8 →
      ∃ u, exec (.instructionFetch id slot) s = .next u ∧
        u.codeBlock w pc = some ⟨id.ctx, id.grid, pc.toNat / 32 * 32, (List.range 8).map fun i => BitVec.ofNat 32 (u.mem.readNat (ha + 4 * i) 4)⟩) ∧
    (∀ (id : WarpId) (w : Warp) (t : Team) (g : Grid), s.warp? id = some w → s.retirable w = true → (s.warps.filter fun x => x.id == id).length = 1 →
      s.team? id.teamId = some t → s.grid? id.ctx id.grid = some g → g.status ≠ 3 → t.retired.length + 1 < t.warps →
      ∃ u, exec (.warpRetire id) s = .next u ∧ u.warp? id = none ∧ u.team? id.teamId = some { t with retired := t.retired ++ [id.warp] } ∧ u.mem = s.mem)

/-! ### Checkpoints and turns (R311, R333 to R336) -/

/-- R311, R333 to R336: an interval's end takes a checkpoint of a context that is scheduled and not at
one: its warps and teams are kept, its undo entries are gone, it is paused; the checkpoint's end
lets the warps issue, but for those whose irrevocable access is still pending. Where no device of
the partition waits, a device with work is given another quantum, once its deficit has fallen to
60 µs; where another has work, its contexts are rolled back: each line written since the
checkpoint has the bytes that it had then, and no other byte changes (stated for a context without
teams and grids). A turn that starts goes to the next device in the ring that has work. The bytes
of a save record, the order of a restore, and that a turn is renewed once its deficit has fallen
to 60 us are the model's (logs 17, 18, 38). -/
def Obligations.CheckpointsAndTurns : Prop :=
  (∀ (s : State) (c : Ctx), s.ctx? c.id = some c →
      (c.paused = false → c.savedOut = false →
        ∃ u y, exec (.checkpointIntervalExpiry c.id) s = .next u ∧ u.ctx? c.id = some y ∧ y.paused = true ∧ y.undo = [] ∧ y.undoGone = [] ∧ y.checkpointAt = u.clock ∧
          y.snapshot.warps = u.warpsOf c.id ∧ y.snapshot.teams = u.teams.filter (fun t => t.id.ctx == c.id) ∧
          u.warps = (s.passTo u.clock).warps.map (fun w => if w.id.ctx = c.id then { w with logged := WarpLog.empty } else w) ∧ s.clock ≤ u.clock) ∧
      (c.paused = true →
        ∃ u y, exec (.checkpointEnd c.id) s = .next u ∧ u.ctx? c.id = some y ∧ y.paused = false ∧
          ∀ w ∈ u.warps, w.id.ctx = c.id → w.awaitCheckpoint = s.irrevocablePending w)) ∧
  ∀ (s : State) (p : Partition) (v : Vf), s.part? p.n = some p → s.vf? v.n = some v →
    (p.turn = some v.n → s.hasWork v = true → (∀ x ∈ s.ring p.n, x.n ≠ v.n → s.hasWork x = false) →
      ∃ u q, exec (.turnEnd p.n) s = .next u ∧ u.part? p.n = some q ∧ q.turn = some v.n ∧ q.turnSince = u.clock ∧ u.mem = s.mem ∧
        u.clock = max s.clock (p.turnSince + (v.deficitUs - 60) * 850) ∧ u.warps = (s.passTo u.clock).warps) ∧
    (∀ c : Ctx, p.turn = some v.n → (∃ x ∈ s.ring p.n, x.n ≠ v.n ∧ s.hasWork x = true) → s.ctxsOf v.n = [c.id] → s.ctx? c.id = some c → c.savedOut = false →
      c.snapshot.teams = [] → c.snapshot.landed = [] → (∀ g ∈ s.grids, g.ctx ≠ c.id) → (∀ t ∈ s.teams, t.id.ctx ≠ c.id) → s.mem.wf = true →
      (∀ l ∈ c.undo, l.bytes.length = 256) → (c.undo.map (·.ha)).Nodup → (∀ l ∈ c.undo, l.ha % 256 = 0) →
      ∃ u q y, exec (.turnEnd p.n) s = .next u ∧ u.part? p.n = some q ∧ q.turn = none ∧ q.lastTurn = v.n ∧ u.ctx? c.id = some y ∧ y.savedOut = true ∧ y.undo = [] ∧
        (∀ w ∈ u.warps, w.id.ctx ≠ c.id) ∧
        ∀ a, u.mem.read a = match c.undo.find? fun l => l.ha == a / 256 * 256 with
          | some l => l.bytes.getD (a % 256) 0#8
          | none => s.mem.read a) ∧
    (p.turn = none → s.sluice.change = none → v.pendingMask = [] → s.waiting v.n = [] → s.hasWork v = true → v ∈ s.ring p.n → p.lastTurn < v.n →
      (∀ x ∈ s.ring p.n, s.hasWork x = true → p.lastTurn < x.n → v.n ≤ x.n) →
      ∃ u q, exec (.turnStart p.n) s = .next u ∧ u.part? p.n = some q ∧ q.turn = some v.n ∧ q.turnSince = s.clock ∧ u.mem = s.mem ∧ u.warps = s.warps)
/-! ### Placing, switching and moving teams (R9, R10, R26, R252, R306, R320, R340 to R343) -/

namespace Sys2Proof.Claims

/-- A new warp (R10): every register is zero and, in a native grid, one fragment stands at the entry with the threads given. -/
def NewWarp (w : Warp) (g : Grid) (v : Variant) : Prop :=
  w.scalars = Vector.replicate 128 0#32 ∧ w.vectors = Vector.replicate 256 (Vector.replicate 32 0#32) ∧ w.preds = Vector.replicate 16 0#32 ∧
  w.wbase = 0 ∧ w.gang = 0#32 ∧ w.nflags = 0#32 ∧ w.super = false ∧ w.exited = ~~~g.firstMask ∧ w.level = g.level ∧
  (g.legacy = false → g.firstMask ≠ 0#32 →
    w.slots[0].st = .live ∧ w.slots[0].frag.pc = v.entry ∧ w.slots[0].frag.mask = g.firstMask ∧ w.slots[0].frag.fmt = 0#32 ∧ w.slots[1].st = .empty)

/-- A warp after its team switched variant at a point that is not marked reshape (R343): `a` is the old variant's record, `b` the new one's. -/
def Switched (w v : Warp) (a b : SwitchPoint) (size : Nat) : Prop :=
  v.wbase = 0 ∧ v.gang = 0#32 ∧ v.valloc = size ∧ v.nflags = w.nflags ∧ v.exited = w.exited ∧ v.depth = w.depth ∧ v.atSwitch = none ∧
  v.preds = Vector.replicate 16 0#32 ∧ v.split = Vector.replicate 64 .free ∧ (∀ l : Fin 4, v.loops[l].live = false) ∧
  (∀ q : Fin 2, w.slots[q].st = .live →
    v.slots[q].st = .live ∧ v.slots[q].frag.pc = b.entry ∧ v.slots[q].frag.mask = w.slots[q].frag.mask ∧ v.slots[q].frag.fmt = w.slots[q].frag.fmt) ∧
  (∀ p ∈ a.vcarry, p.2 < 256 → p.2 < size → (∀ q ∈ a.vcarry, q.2 = p.2 → q = p) → v.vectors[Fin.ofNat 256 p.2] = w.vectors[Fin.ofNat 256 p.1]) ∧
  (∀ i : Fin 256, (∀ p ∈ a.vcarry, p.2 ≠ i.val) → v.vectors[i] = Vector.replicate 32 0#32) ∧
  (∀ p ∈ a.scarry, p.2 < 128 → (∀ q ∈ a.scarry, q.2 = p.2 → q = p) → v.scalars[Fin.ofNat 128 p.2] = w.scalars[Fin.ofNat 128 p.1]) ∧
  ∀ i : Fin 128, (∀ p ∈ a.scarry, p.2 ≠ i.val) → v.scalars[i] = 0#32

end Sys2Proof.Claims

/-- R9, R10, R304, R306: where one grid of the function whose turn it is has a team to place, and the
team's one variant fits a core but no core before it in the scan order, the team is placed there
with new warps in the blocks found, and the grid's next team is the following one. R26: at the end
of a compaction the warps still in the file stand at their new bases, and one that has left it meanwhile keeps its own. The lowest free blocks and team slot are
the model's choice (log 34). -/
def Obligations.TeamsArePlaced : Prop :=
  ∀ (s : State),
    (∀ (p : Partition) (vf : Nat) (g : Grid) (v : Variant) (j h : Nat) (c : CoreId) (bs : List Block) (before after : List CoreId),
      let id : TeamId := ⟨g.ctx, g.id, g.nextTeam⟩
      s.part? p.n = some p → p.turn = some vf → (∃ x, s.vf? vf = some x) → s.sluice.change = none → s.candidates vf = [(g.source, .grid g)] → g.prio < 8 → g.coop = false →
      g.variants = [v] → s.grid? g.ctx g.id = some g → s.freeTeamSlot g.ctx = some j → s.team? id = none → (∀ w ∈ s.warps, w.id.teamId ≠ id) →
      s.scanOrder p.n = before ++ c :: after → (∀ x ∈ before, s.fits x id v = none) → s.fits c id v = some (h, bs) →
      ∃ u t, exec (.teamPlacement p.n) s = .next u ∧ u.team? id = some t ∧ t.core = c ∧ t.h = h ∧ t.variant = 0 ∧ t.slot = j ∧ t.warps = v.warps ∧
        t.st = .running ∧ t.barriers = List.replicate v.barriers ⟨0, 0, 0⟩ ∧ t.slotMap = [] ∧ t.accMap = [] ∧ t.pages = [] ∧ u.mem = s.mem ∧
        u.grid? g.ctx g.id = some { g with nextTeam := g.nextTeam + 1 } ∧
        ∀ b ∈ bs, ∃ w, u.warp? b.warp = some w ∧ w.core = c ∧ w.shuttle = b.shuttle ∧ w.blockBase = b.base ∧ w.valloc = b.size ∧ NewWarp w g v) ∧
    ∀ (id : CoreId) (k : Nat) (moves : List (WarpId × Nat)), (s.core id).compacting = some (k, moves) → (moves.map (·.1)).Nodup →
      ∃ u, exec (.registerCompactionEnd id.part id.n k) s = .next u ∧ (u.core id).compacting = none ∧ u.mem = s.mem ∧
        ∀ n w, s.warp? n = some w →
          (w.core = id ∧ w.shuttle = k ∧ (∀ t, s.team? n.teamId = some t → t.st ≠ .saved) →
            u.warp? n = some { w with blockBase := ((moves.find? fun m => m.1 == n).map (·.2)).getD w.blockBase }) ∧
          (w.core ≠ id ∨ w.shuttle ≠ k ∨ (∃ t, s.team? n.teamId = some t ∧ t.st = .saved) → u.warp? n = some w)

/-- R252, R343: once the rendezvous is complete, however long that has lasted, and the new variant fits, the team stands in the
variant asked for and each of its warps continues at its entry with the carried registers (stated
for a point that is not marked reshape and an unchanged privsz). 4,096 cycles after the first
arrival of a rendezvous that is not complete the request is withdrawn and the held warps, or under a handler the fragments that it interrupted,
continue; R320: so they do where a candidate fits the room that a fat request would take. After 50 µs without a
candidate the one resident team of a core is asked to take the first variant before its own that
would fit. R340, R341: 50 µs after a lean request for a reserved candidate that was not taken its team begins to migrate to
the first core with room; once nothing of it is outstanding, but for the words that a `ret` has read and now reads again, it resumes there with its
registers, fragments and barriers. Corners that no rule settles are the model's (logs 34, 35). -/
def Obligations.TeamsSwitchAndMigrate : Prop :=
  ∀ (s : State) (t : Team), s.team? t.id = some t →
    (∀ (r : SwitchReq) (n since : Nat), t.request = some r → r.point = some (n, since) →
      (∀ (old new : Variant) (a b : SwitchPoint), s.rendezvous t r = true → s.unitFree t new false = true →
        (r.lean = true ∨ s.candidateFits t.core = false) → s.variantOf t t.variant = some old → s.variantOf t r.target = some new →
        old.point n = some a → new.point n = some b → a.reshape = false → (s.resize t r.target new false).isSome = true →
        (∀ w ∈ s.warpsOfTeam t.id, w.privsz = new.privsz) → (s.warps.map (·.id)).Nodup →
        ∃ u, exec (.variantSwitch t.id) s = .next u ∧ u.mem = s.mem ∧
          u.team? t.id = some { t with
            request := none, variant := r.target, warps := new.warps, spadDecl := new.spad, spadsz := spadSize new.spad, privsz := new.privsz
            barriers := List.replicate new.barriers ⟨0, 0, 0⟩, pages := t.pages.filter fun p => decide (2048 * p.n < spadSize new.spad) } ∧
          ∀ w ∈ s.warpsOfTeam t.id, ∃ v, u.warp? w.id = some v ∧ Switched w v a b (blockSize new.regs)) ∧
      (s.assembled t r = true → exec (.switchRendezvousTimeout t.id) s = .next s) ∧
      ∀ (i : Instr) (cycle : Nat),
        (i = .switchRendezvousTimeout t.id ∧ cycle = since + 4096 ∧ s.assembled t r = false) ∨
          (i = .variantSwitch t.id ∧ cycle = s.clock ∧
            ((since + 4096 ≤ s.clock ∧ s.assembled t r = false) ∨ (r.lean = false ∧ s.candidateFits t.core = true))) →
        ∃ u, exec i s = .next u ∧ u.clock = max s.clock cycle ∧ u.mem = s.mem ∧ u.team? t.id = some { t with request := none } ∧
        ∀ id y, s.warp? id = some y →
          let w := s.aged (cycle - s.clock) y
          if id.teamId = t.id ∧ w.atSwitch.isSome = true then
            match w.handler with
            | none => ∃ v, v = { w with slots := v.slots, loops := v.loops } ∧ Advanced w v ∧ u.warp? id = some { v with atSwitch := none }
            | some h =>
              let x : Warp := { w with cur := h.slot, slots := w.slots.set h.slot ⟨w.slots[h.slot].st, h.frag⟩ }
              ∃ v, v = { x with slots := v.slots, loops := v.loops } ∧ Advanced x v ∧
                u.warp? id = some { v with cur := w.cur, slots := w.slots, handler := some { h with frag := v.frag }, atSwitch := none }
          else u.warp? id = some w) ∧
    (∀ (p : Partition) (vf k : Nat), s.part? t.core.part = some p → p.turn = some vf → s.candidates vf = [] → s.teams.filter (fun x => x.core == t.core) = [t] →
      t.st = .running → t.request = none → k < t.variant → (s.asIf t k).isSome = true → (∀ i < k, s.asIf t i = none) →
      ∃ u, exec (.fatSwitchRequest t.core.part t.core.n) s = .next u ∧ u.clock = max s.clock ((s.core t.core).freeSince + 42500) ∧ u.mem = s.mem ∧
        u.warps = (s.passTo u.clock).warps ∧
        let r : SwitchReq :=
          { candidate := none, target := k, lean := false, posted := u.clock, warps := (s.warpsOfTeam t.id).map (·.id.warp), point := none, arrived := []
            moved := false }
        u.team? t.id = some { t with request := some r }) ∧
    (∀ (p : Partition) (v : Vf) (x : CandidateId) (h : Nat) (c : CoreId) (r : SwitchReq), s.part? p.n = some p → t.core.part = p.n → p.turn = some v.n →
      s.vf? v.n = some v → t.request = some r → r.moved = false → r.candidate = some x → x ∈ v.reserved → s.mayMigrate t = true →
      (∀ y ∈ s.teams, ∀ q, y.request = some q → q.moved = false → q.candidate.isSome = true → y = t) → s.destination t = some (c, h) →
      ∃ u, exec (.leanMigration p.n) s = .next u ∧ u.clock = max s.clock (r.posted + 42500) ∧ u.mem = s.mem ∧
        u.warps = (s.passTo u.clock).warps ∧
        u.team? t.id = some { t with st := .migrating c h u.clock, request := some { r with moved := true } }) ∧
    ∀ (c : CoreId) (h since : Nat) (bs : List Block), t.st = .migrating c h since → s.drained t = true → s.quiet c (s.teamNeeds t h) = true → s.sluice.pendingPlaces = [] → s.sluice.pendingGroups = [] →
      allocate ((s.blocks c).filter fun b => b.warp.teamId != t.id) (s.teamNeeds t h) = some bs → (bs.map (·.warp)).Nodup → (∀ x ∈ s.l1, x.dirty = false) →
      ∃ u t', exec (.migrationResume t.id) s = .next u ∧ u.team? t.id = some t' ∧ t'.core = c ∧ t'.h = h ∧ t'.st = .running ∧ t'.barriers = t.barriers ∧
        t'.slotMap.map (·.1) = t.slotMap.map (·.1) ∧ t'.accMap.map (·.1) = t.accMap.map (·.1) ∧
        ∀ b ∈ bs, ∀ w, s.warp? b.warp = some w →
          ∃ v, u.warp? b.warp = some v ∧
            v = { w with core := c, shuttle := b.shuttle, blockBase := b.base, active := v.active, pendingSince := v.pendingSince, count := 0, loads := []
                         logged := v.logged }

/-! ### The portal and packets (R295 to R300, R314 to R317, R363) -/

namespace Sys2Proof.Claims

/-- Queue number, sequence number and type in a packet's header (R296). -/
def packetQueue (b : List Byte) : Nat := leAt b 0 1
def packetSeq (b : List Byte) : Nat := leAt b 4 4
def packetType (b : List Byte) : Nat := leAt b 3 1

/-- The write is one that queue q may take (R297). -/
def QueueTakes (b : BarWrite) (q : Queue) : Prop := b.bytes.length = 64 ∧ b.offset = 0x1000 ∧ b.pasid = q.pasid

/-- The host link is enabled. -/
def LinkEnabled (s : State) : Prop := s.sluice.hostLink = true ∧ s.sluice.recovery = false

/-- Packet b is at the head of queue x of the function, with `more` behind it, and its after bit does not hold it back (R298). -/
def AtHead (s : State) (vf : Nat) (x : Queue) (b : List Byte) (more : List (List Byte)) : Prop :=
  LinkEnabled s ∧ b.length = 64 ∧ x.buffer = b :: more ∧ (∃ v, s.vf? vf = some v ∧ v.queue? x.n = some x) ∧
    (leAt b 2 1 % 2 = 1 → ∀ g ∈ s.grids, g.packet.isSome = true → g.source ≠ .queue vf x.n)

/-- The round has come to the packet (R302): its queue is one of the lanes that have still to run, and no lane holds a packet of a lower type
number. -/
def RoundReaches (s : State) (vf : Nat) (x : Queue) (b : List Byte) : Prop :=
  (vf, x.n) ∈ s.lanesLeft ∧ ∀ l ∈ s.lanesLeft, packetType b ≤ s.laneType l

/-- The header's zero bits are zero (R296). -/
def HeaderZero (b : List Byte) : Prop := leAt b 1 1 = 0 ∧ leAt b 2 1 < 2

/-- The queue is queue 0, or its context has not failed (R373). -/
def Serves (s : State) (x : Queue) : Prop := x.n = 0 ∨ ∀ c, s.ctx? x.ctx = some c → c.failed = false

/-- What the packet did stands in `s`; it leaves its queue and its round, whose lanes were `lanes`, and its status word is written (R298,
R302): seq, detail in bits 31:8, result code. -/
def finished (lanes : List (Nat × Nat)) (s : State) (vf : Nat) (x : Queue) (b : List Byte) (code detail : Nat) : State :=
  let s := State.setQueue { s with round := lanes.filter fun l => l != (vf, x.n) } vf x.n fun q => { q with buffer := q.buffer.drop 1 }
  let word := leBytes 8 (packetSeq b * 2 ^ 32 + detail * 2 ^ 8 + code)
  if x.n = 0 then s.send (.hostBusWrite x.status word) else s.reportWrite vf x.n x.ctx x.status word

/-- The event that consumes a packet of a type (R299). -/
def packetRow (vf q : Nat) : Nat → Option Instr
  | 0x01 => some (.launchPacket vf q)
  | 0x08 => some (.taskArm vf q)
  | 0x09 => some (.nodeDefine vf q)
  | 0x10 => some (.recordWrite vf q)
  | 0x11 => some (.contextSetup vf q)
  | 0x12 => some (.invalidateTranslations vf q)
  | 0x13 => some (.framePool vf q)
  | 0x14 => some (.pagePool vf q)
  | 0x15 => some (.killGrid vf q)
  | 0x16 => some (.taskTable vf q)
  | 0x17 => some (.keyTable vf q)
  | 0x18 => some (.queueConfigure vf q)
  | _ => none

/-- Bytes lo to hi - 1 are zero. -/
def ZeroFrom (b : List Byte) (lo hi : Nat) : Prop := ∀ i, lo ≤ i → i < hi → leAt b i 1 = 0

end Sys2Proof.Claims

/-- R297, by its table: what the portal of an enabled function answers to a write, and what it does to the queue; R363: a write to an offset that
holds nothing changes nothing, and a write into the MSI-X table changes the bytes written and no others. -/
def Obligations.PortalAnswers : Prop :=
  ∀ (s : State) (b : BarWrite) (v : Vf), s.vf? b.vf = some v → LinkEnabled s →
    (v.enabled = true → v.portalOpen = false → exec (.portalWrite b) s = .next (s.send (.unsupportedRequest b.vf))) ∧
    (v.enabled = true → v.portalOpen = true →
      let n := packetQueue b.bytes
      ((∀ q, v.queue? n = some q → ¬ QueueTakes b q) →
        exec (.portalWrite b) s = .next ((s.send (.unsupportedRequest b.vf)).queue0Event b.vf 0x42 n)) ∧
      ∀ q, v.queue? n = some q → QueueTakes b q →
        let back := (q.expected - BitVec.ofNat 32 (packetSeq b.bytes)).toNat
        (back = 0 → q.buffer.length < 16 →
          exec (.portalWrite b) s = .next ((s.setQueue b.vf n fun q => { q with expected := q.expected + 1#32, buffer := q.buffer ++ [b.bytes] }).send
            (.portalSuccess b.vf))) ∧
        (back = 0 → 16 ≤ q.buffer.length → exec (.portalWrite b) s = .next (s.send (.portalRetry b.vf))) ∧
        (1 ≤ back → back ≤ 2 ^ 31 → exec (.portalWrite b) s = .next (s.send (.portalSuccess b.vf))) ∧
        (2 ^ 31 < back → exec (.portalWrite b) s = .next (s.send (.portalRetry b.vf)))) ∧
    exec (.barWriteDiscarded b) s = .next s ∧
    (0x2000 ≤ b.offset → b.offset + b.bytes.length ≤ 0x3000 → v.msixPending = [] →
      ∃ u y, exec (.msixTableWrite b) s = .next u ∧ u.vf? b.vf = some y ∧ y.queues = v.queues ∧ u.outbox = s.outbox ∧ u.mem = s.mem ∧
        ∀ k, (y.msixTable.find? fun e => e.1 == k).map (·.2) =
          if b.offset ≤ 0x2000 + k ∧ 0x2000 + k < b.offset + b.bytes.length then b.bytes[0x2000 + k - b.offset]?
          else (v.msixTable.find? fun e => e.1 == k).map (·.2))

/-- R298 to R300, R302: a packet that the round has come to, of an unknown type, ends with result 0x01, a
privileged type on a user queue with 0x02, a header with a nonzero zero field with 0x03, and types
0x01, 0x08 and 0x09 on queue 0 with 0x04, and none has another effect. R373: of the queues of a
failed context only launches are consumed, with result 0x04. A launch that passes its checks creates
a root grid in a free frame, and without a free frame it holds the queue. R314, R317, R322: task arm
and node define. The precedence of several results is the model's (log 36). -/
def Obligations.UserPackets : Prop :=
  ∀ (s : State) (vf : Nat) (x : Queue) (b : List Byte) (more : List (List Byte)), AtHead s vf x b more →
    let done (u : State) (code : Nat) : State := finished s.lanesLeft u vf x b code 0
    (∀ c : Ctx, x.n ≠ 0 → s.ctx? x.ctx = some c →
      (c.failed = true → ∀ i, packetRow vf x.n (packetType b) = some i →
        (packetType b = 0x01 → RoundReaches s vf x b → exec i s = .next (done s 4)) ∧ (packetType b ≠ 0x01 → exec i s = .next s)) ∧
      (∀ k, c.failed = false → HeaderZero b → packetType b = 0x01 → leAt b 24 1 ≤ 1 → ZeroFrom b 25 32 → ZeroFrom b 40 64 →
        s.launchPacketCheck vf x b = some k → s.freeFrame x.ctx (frameClass (leAt b 20 4)) = none → exec (.launchPacket vf x.n) s = .next s)) ∧
    (RoundReaches s vf x b → Serves s x →
      (HeaderZero b → (∀ q, packetRow vf q (packetType b) = none) → exec (.unknownPacketType vf x.n) s = .next (done s 1)) ∧
      (∀ i, packetRow vf x.n (packetType b) = some i →
        (¬ HeaderZero b → exec i s = .next (done s 3)) ∧
        (HeaderZero b → x.n ≠ 0 → 0x10 ≤ packetType b → exec i s = .next (done s 2)) ∧
        (HeaderZero b → x.n = 0 → packetType b < 0x10 → exec i s = .next (done s 4))) ∧
      ∀ c : Ctx, HeaderZero b → x.n ≠ 0 → s.ctx? x.ctx = some c →
        (∀ k, packetType b = 0x01 → leAt b 24 1 ≤ 1 → ZeroFrom b 25 32 → ZeroFrom b 40 64 → s.launchPacketCheck vf x b = some k →
          ∀ f, s.freeFrame x.ctx (frameClass (leAt b 20 4)) = some f →
            ∃ u g, exec (.launchPacket vf x.n) s = .next u ∧ g ∈ u.grids ∧ (∀ h ∈ s.grids, h ∈ u.grids) ∧ g.ctx = x.ctx ∧ g.frame = f ∧ g.kernel = leAt b 8 8 ∧
              g.teams = leAt b 16 4 ∧ g.teamsLive = leAt b 16 4 ∧ g.nextTeam = 0 ∧ g.children = 0 ∧ g.parent = none ∧ g.level = 0 ∧ g.status = 1 ∧
              g.coop = decide (leAt b 24 1 = 1) ∧ g.prio = x.level ∧ g.source = .queue vf x.n ∧
              g.packet = some (BitVec.ofNat 32 (packetSeq b), leAt b 32 8) ∧
              ((u.vf? vf).bind fun v => v.queue? x.n).map (·.buffer) = some more) ∧
        (∀ base size lvl, packetType b = 0x08 → c.taskTable = some (base, size, lvl) → leAt b 14 1 ≤ 15 → leAt b 15 1 = 0 → 16 ≤ leAt b 32 4 → leAt b 32 4 ≤ 65472 →
          ZeroFrom b 36 64 →
          (size ≤ leAt b 8 4 → exec (.taskArm vf x.n) s = .next (done s 3)) ∧
          (leAt b 8 4 < size → s.taskBusy c (leAt b 8 4) = true → exec (.taskArm vf x.n) s = .next (done s 5)) ∧
          (leAt b 8 4 < size → s.taskBusy c (leAt b 8 4) = false →
            let r := s.unitWrite c.id (base + 32 * leAt b 8 4) (leBytes 8 (leAt b 16 8) ++ leBytes 8 (leAt b 24 8) ++ leBytes 2 (leAt b 12 2) ++
              leBytes 1 (leAt b 14 1) ++ leBytes 1 (if leAt b 12 2 = 0 then 2 else 1) ++ leBytes 4 (leAt b 32 4) ++ leBytes 8 0)
            let armed := if leAt b 12 2 = 0 then r.1.setCtx c.id fun c => c.makeReady (leAt b 8 4) (leAt b 14 1) s.clock else r.1
            r.2 = 0#8 → exec (.taskArm vf x.n) s = .next (done (armed.passTo (s.clock + 1)) 0))) ∧
        ∀ k : Kernel, packetType b = 0x09 → leAt b 8 2 ≤ 4095 → leAt b 10 1 ≤ 7 → leAt b 11 1 ≤ 7 → leAt b 12 4 ≤ 1000 → 512 ≤ leAt b 16 4 → leAt b 16 4 ≤ 65472 →
          ZeroFrom b 20 24 → ZeroFrom b 32 64 → s.kernel c.id (leAt b 24 8) = some k → (∀ v ∈ k.variants, v.warps = 1) →
          (∀ y ∈ c.nodes, y.n = leAt b 8 2 → y.records = []) →
          ∃ u y, exec (.nodeDefine vf x.n) s = .next u ∧ u.ctx? c.id = some y ∧
            y.nodes.find? (fun z => z.n == leAt b 8 2) = some
              { n := leAt b 8 2, kernel := leAt b 24 8, frame := leAt b 16 4, timerUs := if leAt b 12 4 = 0 then 5 else leAt b 12 4
                key := if leAt b 10 1 / 4 = 1 then some (leAt b 10 1 % 4) else none, level := leAt b 11 1, records := [], due := [] } ∧
            ∀ n, n ≠ leAt b 8 2 → y.nodes.find? (fun z => z.n == n) = c.nodes.find? (fun z => z.n == n))

namespace Sys2Proof.Claims

/-- The bases that a setup packet gives a context (R299). -/
def withBases (c : Ctx) (b : List Byte) : Ctx :=
  { c with pageTable := leAt b 16 8, recordTable := leAt b 24 8, backing := leAt b 32 8, privRegion := leAt b 40 8, teamSlots := leAt b 10 2 }

/-- No core holds any more a record that answers to p (R92). -/
def unheld (s : State) (p : HeldRecord → Bool) : State := { s with cores := s.cores.map fun k => { k with records := k.records.filter fun r => !p r } }

/-- The fields of a setup packet are in range. -/
def SetupFields (b : List Byte) : Prop :=
  1 ≤ leAt b 10 2 ∧ leAt b 10 2 ≤ 4096 ∧ leAt b 16 8 % 4096 = 0 ∧ leAt b 40 8 % 2 ^ 20 = 0 ∧ ZeroFrom b 12 16 ∧ ZeroFrom b 48 64

end Sys2Proof.Claims

/-- R64, R70, R92, R254, R257, R268, R295, R299, R316, R327, R399: what the packets of queue 0 do to
the context that they name, when their fields are in range and their table checks pass. What a
packet reads leaves what any read of the front end leaves (R68). That the
page-pool packet leaves the ownership table as it is is read from R254 by inference (log 13). The precedence of several
results, the number of a new context and the frames that it keeps are the model's (logs 36, 57), and so are that a destroying queue configure may
name any context of the function, and which of its fields are not checked then (logs 70, 79), that a task-table packet checks no page of its table (log 79), and that a context's cached records are dropped with
its setup (log 82). -/
def Obligations.PrivilegedPackets : Prop :=
  ∀ (s : State) (vf : Nat) (x : Queue) (b : List Byte) (more : List (List Byte)), AtHead s vf x b more → RoundReaches s vf x b → HeaderZero b → x.n = 0 →
    let done (u : State) (code : Nat) : State := finished s.lanesLeft u vf x b code 0
    (∀ i, packetType b = 0x11 → leAt b 8 2 = 0 → SetupFields b → 1 ≤ i → i < 4096 → s.ctx? i = none → (∀ k, 1 ≤ k → k < i → s.ctx? k ≠ none) →
      let r := (State.keepFrames { s with ctxs := s.ctxs ++ [Ctx.new i vf s.clock] } i vf).setCtx i fun c => withBases c b
      let w := r.unitWrite i (leAt b 24 8) (leBytes 64 0) false
      r.recordTableOk i (leAt b 24 8) = true → w.2 = 0#8 →
      exec (.contextSetup vf 0) s = .next (finished s.lanesLeft (unheld w.1 fun r => r.ctx == i) vf x b 0 i)) ∧
    ∀ c : Ctx, s.ctx? (leAt b 8 2) = some c → c.vf = vf → c.failed = false → leAt b 8 2 < 4096 →
      (packetType b = 0x11 → leAt b 8 2 ≠ 0 → SetupFields b →
        let r := s.setCtx c.id fun c => withBases c b
        let w := r.unitWrite c.id (leAt b 24 8) (leBytes 64 0) false
        (s.ctxBusy c = true → exec (.contextSetup vf 0) s = .next (done s 5)) ∧
        (s.ctxBusy c = false → r.recordTableOk c.id (leAt b 24 8) = true → w.2 = 0#8 →
          exec (.contextSetup vf 0) s = .next (done (unheld w.1 fun r => r.ctx == c.id) 0))) ∧
      (∀ l, packetType b = 0x10 → ZeroFrom b 12 16 → ZeroFrom b 24 64 → s.frontRead c.id (leAt b 16 8) 64 = some l →
        (leAt b 10 2 = 0 → controlBlockOk l = false → exec (.recordWrite vf 0) s = .next (done s 3)) ∧
        (leAt b 10 2 ≠ 0 ∨ controlBlockOk l = true →
          let r := (s.unitReads c.id [(leAt b 16 8, 64)]).unitWrite c.id (c.recordTable + 64 * leAt b 10 2)
            (if leAt b 10 2 = 0 then l.take 20 ++ leBytes 5 0 ++ l.drop 25 else l) false
          r.2 = 0#8 → exec (.recordWrite vf 0) s = .next (done (unheld r.1 fun r => r.ctx == c.id && r.handle == leAt b 10 2) 0))) ∧
      (packetType b = 0x12 → ZeroFrom b 10 16 → ZeroFrom b 32 64 → (c.framePool = none ∨ ∀ g ∈ s.grids, g.ctx ≠ c.id) →
        exec (.invalidateTranslations vf 0) s = .next (done
          { s with tlb := s.tlb.filter fun e => !(e.ctx == c.id && decide (e.page < leAt b 16 8 + leAt b 24 8) && decide (leAt b 16 8 < e.page + e.size)) } 0)) ∧
      (packetType b = 0x13 → ZeroFrom b 10 16 → ZeroFrom b 42 64 →
        let base := leAt b 16 8
        let counts := (List.range 9).map fun i => leAt b (24 + 2 * i) 2
        let l := poolLayout base counts
        (base % 65536 ≠ 0 → exec (.framePool vf 0) s = .next (done s 3)) ∧
        (base % 65536 = 0 → (∀ p ∈ pagesIn base l.1, p < 2 ^ 57 ∧ ∃ f, s.walk c.id p = .ok f ∧ f.pte.getLsbD 1 = true ∧ f.home p < 2 ^ 52 ∧ s.owns c.id (f.home p) = true) →
          ((∃ g ∈ s.grids, g.ctx = c.id) → exec (.framePool vf 0) s = .next (done s 5)) ∧
          ((∀ g ∈ s.grids, g.ctx ≠ c.id) →
            exec (.framePool vf 0) s = .next (done (s.setCtx c.id fun c => { c with framePool := some ⟨base, counts, l.2⟩ }) 0)))) ∧
      (∀ l, packetType b = 0x14 → ZeroFrom b 24 64 → leAt b 10 1 ≤ 127 → leAt b 11 1 ≤ 7 → s.frontRead c.id (leAt b 16 8) (8 * leAt b 12 4) = some l →
        ∃ u y, exec (.pagePool vf 0) s = .next u ∧ u.ctx? c.id = some y ∧ u.mem = (s.unitReads c.id [(leAt b 16 8, 8 * leAt b 12 4)]).mem ∧ u.owners = s.owners ∧
          y.pagePools.find? (fun q => q.n == leAt b 10 1) = some ⟨leAt b 10 1, (leAt b 11 1).testBit 0, (leAt b 11 1).testBit 1, (leAt b 11 1).testBit 2,
            (List.range (leAt b 12 4)).map fun i => leAt l (8 * i) 8⟩) ∧
      (packetType b = 0x15 → ZeroFrom b 10 12 → ZeroFrom b 16 64 →
        (s.grid? c.id (leAt b 12 4) = none → exec (.killGrid vf 0) s = .next (done s 4)) ∧
        ∀ g, s.grid? c.id (leAt b 12 4) = some g → g.status ≠ 3 →
          ∃ u, exec (.killGrid vf 0) s = .next u ∧
            (∀ w ∈ u.warps, w.id.ctx = c.id → w.id.grid = leAt b 12 4 → w.stopped = true) ∧
            ∀ h ∈ u.grids, h.ctx = c.id → h.id = leAt b 12 4 → h.status = 3 ∧ h.killed = true) ∧
      (packetType b = 0x16 → leAt b 11 1 = 0 → ZeroFrom b 24 64 → leAt b 10 1 ≤ 7 → 1 ≤ leAt b 12 4 → leAt b 12 4 ≤ 65536 →
        (c.ready = [] → (∀ g ∈ s.grids, g.ctx = c.id → g.task = none) →
          exec (.taskTable vf 0) s = .next (done (s.setCtx c.id fun c => { c with taskTable := some (leAt b 16 8, leAt b 12 4, leAt b 10 1) }) 0)) ∧
        (c.ready ≠ [] → exec (.taskTable vf 0) s = .next (done s 5))) ∧
      (packetType b = 0x17 → ZeroFrom b 10 16 → ZeroFrom b 24 64 →
        exec (.keyTable vf 0) s = .next (done (s.setCtx c.id fun c => { c with keyTable := leAt b 16 8 }) 0)) ∧
      (∀ v, packetType b = 0x18 → leAt b 13 1 = 0 → ZeroFrom b 20 24 → ZeroFrom b 32 63 → s.vf? vf = some v → leAt b 10 1 ≠ 0 →
        (leAt b 63 1 = 0 → leAt b 11 1 ≤ 7 → leAt b 12 1 ≠ 0 → leAt b 14 2 ≠ 0 → leAt b 16 4 < 2 ^ 20 →
          (v.queue? (leAt b 10 1) = none → exec (.queueConfigure vf 0) s = .next (done (s.setVf vf fun v => { v with
            queues := v.queues ++ [⟨leAt b 10 1, c.id, some (leAt b 16 4), leAt b 24 8, leAt b 11 1, leAt b 12 1, leAt b 14 2, 0#32, []⟩] }) 0)) ∧
          (v.queue? (leAt b 10 1) ≠ none → exec (.queueConfigure vf 0) s = .next (done s 5))) ∧
        (leAt b 63 1 = 1 → ∀ q, v.queue? (leAt b 10 1) = some q → q.buffer = [] → (∀ g ∈ s.grids, g.packet.isSome = true → g.source ≠ .queue vf (leAt b 10 1)) →
          exec (.queueConfigure vf 0) s = .next (done (s.setVf vf fun v => { v with
            queues := v.queues.filter fun x => x.n != leAt b 10 1, grants := v.grants.filter fun g => g.source != .queue vf (leAt b 10 1) }) 0)))

/-! ### Work-graph nodes and the links (R80, R93, R315, R346, R347, R364, R365, R375) -/

/-- R315: a lapsed timer makes a batch of the records that are in none; the first batch becomes, in a
free frame, a grid of one team whose first mask holds as many threads as the batch has records,
and its records leave the gatherer. The number of a new grid is the model's free value (log 2). -/
def Obligations.NodesLaunch : Prop :=
  ∀ (s : State) (c : Ctx) (x : Node), s.ctx? c.id = some c → c.nodes.find? (fun y => y.n == x.n) = some x →
    (∀ time r, x.records[x.due.sum]? = some (time, r) →
      ∃ u y, exec (.nodeTimerExpiry c.id x.n) s = .next u ∧ u.clock = max s.clock (time + 850 * x.timerUs + 1) ∧ u.ctx? c.id = some y ∧
        y.nodes.find? (fun z => z.n == x.n) = some { x with due := x.due ++ [x.records.length - x.due.sum] } ∧ u.mem = s.mem ∧
        u.warps = (s.passTo u.clock).warps) ∧
    ∀ k more kernel f, x.due = k :: more → k ≤ 32 → c.failed = false → s.kernel c.id x.kernel = some kernel → s.freeFrame c.id (frameClass x.frame) = some f →
      ∃ u y g, exec (.nodeBatchLaunch c.id x.n) s = .next u ∧ u.ctx? c.id = some y ∧
        y.nodes.find? (fun z => z.n == x.n) = some { x with records := x.records.drop k, due := more } ∧
        g ∈ u.grids ∧ (∀ h ∈ s.grids, h ∈ u.grids) ∧ g.ctx = c.id ∧ g.kernel = x.kernel ∧ g.frame = f ∧ g.teams = 1 ∧ g.parent = none ∧ g.level = 0 ∧
        g.status = 1 ∧ g.source = .node c.id x.n ∧ g.prio = x.level ∧ ∀ t < 32, g.firstMask.getLsbD t = decide (t < k)

/-- R78, R93, R375: a host write to frames in service stores its bytes and no other byte changes, one
that touches another frame is refused; a host read gives the bytes, with the poison bit where a
sector's check value fails or it is poisoned. R80: a peer's request whose identity is not in the
ingress table is refused with 0x0A; a load, a store and an atomic that its context may make are
performed, and poison goes with the data (R364, R375); in the recovery state none is answered
(R367), nor by the host's accesses without its link. R364: a flit with a bad CRC is replayed, and more than 16 replays take the link down; a
load that no link carries within 10 ms stops its warp. R365: the route and ingress tables and the
device's own number. R347: a peer's reset gives the one local context mapped to it a record of
source 2 and code 0x0A. That the outside world acts through cells changed by events is the model's
(log 11), that a request waits for what a bank has accepted is log 61, and from when the 10 ms
count is log 37. -/
def Obligations.LinksAndHost : Prop :=
  ∀ (s : State), s.mem.wf = true →
    (¬ LinkEnabled s → ∀ (pa size : Nat) (bytes : List Byte), exec (.hostWrite pa bytes) s = .next s ∧ exec (.hostRead pa size) s = .next s) ∧
    (∀ (pa : Nat) (bytes : List Byte), LinkEnabled s →
      ((∀ i < bytes.length, s.inService (pa + i) = true) → (∃ i < bytes.length, s.bankAwaits (pa + i) = true) → exec (.hostWrite pa bytes) s = .next s) ∧
      ((∀ y ∈ s.l1, y.dirty = false) → (∀ i < bytes.length, s.inService (pa + i) = true ∧ s.bankAwaits (pa + i) = false) →
        ∃ u, exec (.hostWrite pa bytes) s = .next u ∧ u.outbox = s.outbox ++ [.completer true] ∧ u.warps = s.warps ∧
          ∀ a, u.mem.read a = if pa ≤ a ∧ a < pa + bytes.length then bytes.getD (a - pa) 0#8 else s.mem.read a) ∧
      ((∃ i < bytes.length, s.inService (pa + i) = false) → exec (.hostWrite pa bytes) s = .next (s.send (.completer false)))) ∧
    (∀ pa size : Nat, LinkEnabled s →
      ((∀ i < size, s.inService (pa + i) = true) → (∃ i < size, s.bankAwaits (pa + i) = true) → exec (.hostRead pa size) s = .next s) ∧
      ((∀ i < size, s.inService (pa + i) = true ∧ s.bankAwaits (pa + i) = false) →
        ∃ u, exec (.hostRead pa size) s = .next u ∧ u.mem = s.mem ∧ u.warps = s.warps ∧
          u.outbox = s.outbox ++ [.readData ((List.range size).map fun i => s.mem.read (pa + i))
            ((List.range size).any fun i => s.mark ((pa + i) / 64 * 64) == some .poisoned || !s.verifies ((pa + i) / 64 * 64))]) ∧
      ((∃ i < size, s.inService (pa + i) = false) → exec (.hostRead pa size) s = .next (s.send (.completer false)))) ∧
    (∀ r : WeftRequest, (s.sluice.recovery = true → exec (.weftIngressRequest r) s = .next s) ∧
      (s.sluice.recovery = false → (∀ e ∈ s.ingress, e.1 ≠ r.identity) → exec (.weftIngressRequest r) s = .next (s.send (.weftRefused 0x0A#8)))) ∧
    (∀ (identity ctx pa : Nat), s.sluice.recovery = false → (s.ingress.find? fun e => e.1 == identity) = some (identity, ctx) →
      (∀ r : WeftRequest, r.identity = identity → (∃ p ∈ requestPieces r, s.bankAwaits p.1 = true) → exec (.weftIngressRequest r) s = .next s) ∧
      (∀ size, (∀ i < size, s.bankAwaits (pa + i) = false ∧ pa + i < 192 * 2 ^ 30 ∧ s.mark ((pa + i) / 64 * 64) ≠ some .failing ∧
          ∀ n ≤ 64, s.sectorCode ctx (pa + i) n = 0#8 ∨ s.sectorCode ctx (pa + i) n = 0x15#8) →
        ∃ u, exec (.weftIngressRequest ⟨identity, pa, .load size⟩) s = .next u ∧ u.mem = s.mem ∧
          u.outbox = s.outbox ++ [.weftAnswer ((List.range size).map fun i => s.mem.read (pa + i))
            ((List.range size).any fun i => (s.mark ((pa + i) / 64 * 64)).isSome)]) ∧
      (∀ bytes poisoned, (∀ y ∈ s.l1, y.dirty = false) → (∀ i < bytes.length, s.bankAwaits (pa + i) = false ∧ s.owns ctx (pa + i) = true) →
        ∃ u, exec (.weftIngressRequest ⟨identity, pa, .store bytes poisoned⟩) s = .next u ∧ u.outbox = s.outbox ++ [.completer true] ∧
          (poisoned = true → ∀ i < bytes.length, u.mark ((pa + i) / 64 * 64) = some .poisoned) ∧
          ∀ a, u.mem.read a = if pa ≤ a ∧ a < pa + bytes.length then bytes.getD (a - pa) 0#8 else s.mem.read a) ∧
      ∀ (code size : Nat) (un fl : Bool) (x cmp : BitVec 64), (∀ y ∈ s.l1, y.dirty = false) → code < 8 → (size = 4 ∨ size = 8) → (fl = true → size = 4) →
        pa % size = 0 → s.bankAwaits pa = false → s.owns ctx pa = true → s.sectorCode ctx pa size = 0#8 → x.toNat < 2 ^ (8 * size) → cmp.toNat < 2 ^ (8 * size) →
        ∃ u, exec (.weftIngressRequest ⟨identity, pa, .atomic code un fl size x cmp⟩) s = .next u ∧
          u.outbox = s.outbox ++ [.weftAnswer ((List.range size).map fun i => s.mem.read (pa + i)) false] ∧
          u.mem.readNat pa size = (atomicNew (BitVec.ofNat 3 code) un fl (8 * size) (s.mem.readNat pa size) x.toNat cmp.toNat).1 ∧
          ∀ a, a < pa ∨ pa + size ≤ a → u.mem.read a = s.mem.read a) ∧
    (∀ n : Nat, exec (.weftFlitReceive n true) s = .next { s with links := s.links.map fun l => if l.n = n ∧ l.up = true then { l with replays := 0 } else l } ∧
      exec (.weftFlitReceive n false) s = .next { s with
        cutAt := if ∃ l ∈ s.links, l.n = n ∧ l.up = true ∧ 16 ≤ l.replays then s.clock else s.cutAt
        links := s.links.map fun l =>
          if l.n = n ∧ l.up = true then { l with replays := l.replays + 1, up := decide (l.replays < 16) } else l }) ∧
    (∀ (id : WarpId) (w : Warp) (x : Load), s.warp? id = some w →
      ((∀ k : Fin 2, w.hold[k] ≠ some .link) → (∀ y ∈ w.loads, ∀ r ∈ y.lanes, s.reachable r.ha = true) → (∀ p ∈ s.stores, ∀ l ∈ p.lanes, s.reachable l.1.ha = true) →
        (∀ c ∈ s.copies, ∀ h ∈ c.reads ++ c.lines, s.reachable h = true) → (∀ o ∈ s.ops, ∀ h ∈ o.reads ++ o.lines, s.reachable h = true) →
        exec (.weftRequestTimeout id) s = .next s) ∧
      (w.loads.find? (fun y => y.data.isNone && y.lanes.any fun r => !s.reachable r.ha) = some x →
        ∃ u, exec (.weftRequestTimeout id) s = .next u ∧ max x.since s.cutAt + 8500000 ≤ u.clock ∧ ∀ v, u.warp? id = some v → v.stopped = true ∧ ∀ y ∈ v.loads, y.id ≠ x.id)) ∧
    (∀ (device peerCtx : Nat),
      ((∀ e ∈ s.ingress, e.1 ≠ device * 4096 + peerCtx) → exec (.peerRemoteAbort device peerCtx) s = .next s) ∧
      ∀ ctx, s.ingress.filter (fun e => e.1 == device * 4096 + peerCtx) = [(device * 4096 + peerCtx, ctx)] →
        ∃ r, r.length = 64 ∧ leAt r 0 1 = 0x0A ∧ leAt r 1 1 = 0 ∧ leAt r 2 1 = 2 ∧ leAt r 3 1 = 0 ∧ leAt r 24 8 = 0 ∧ leAt r 36 4 = 0x0A ∧ leAt r 48 8 = s.clock % 2 ^ 64 ∧ leAt r 56 8 = 0 ∧
          exec (.peerRemoteAbort device peerCtx) s = .next (State.faultRecord { s with freeIx := s.freeIx + 10 } ctx r).1) ∧
    (∀ (device : Nat) (links : List Nat),
      (64 ≤ device → exec (.routeIngressTableWrite (.route device links)) s = .next (s.send .commandError)) ∧
      (device < 64 → ∃ u, exec (.routeIngressTableWrite (.route device links)) s = .next u ∧ u.mem = s.mem ∧
        ∀ d, (u.routes.find? fun r => r.1 == d).map (·.2) =
          if d = device then some (links.filter (· < 16)) else (s.routes.find? fun r => r.1 == d).map (·.2))) ∧
    (∀ n : Nat, exec (.routeIngressTableWrite (.device n)) s = .next (if n < 64 then
      State.send { s with sluice := { s.sluice with device := n } } (.commandDone []) else s.send .commandError)) ∧
    ∀ (identity : Nat) (ctx : Option Nat), identity < 2 ^ 18 → (∀ c, ctx = some c → c < 4096) → s.ingress.length < 4096 →
      ∃ u, exec (.routeIngressTableWrite (.ingress identity ctx)) s = .next u ∧ u.mem = s.mem ∧
        ∀ i, (u.ingress.find? fun e => e.1 == i).map (·.2) = if i = identity then ctx else (s.ingress.find? fun e => e.1 == i).map (·.2)

/-! ### The sluice controller (R311, R333, R346, R351 to R374) -/

namespace Sys2Proof.Claims

/-- What one sensor reading does (R352): issue on the ply stops above 110 °C and resumes below 100 °C. -/
def sensed (s : State) (t : PlyTemperature) : State :=
  if 110 < t.celsius ∧ t.ply ∉ s.sluice.stoppedPlies then
    { s with
      sluice := { s.sluice with stoppedPlies := s.sluice.stoppedPlies ++ [t.ply], thermalEvents := s.sluice.thermalEvents + 1 }
      outbox := s.outbox ++ [.thermalEvent t.ply] }
  else if t.celsius < 100 ∧ t.ply ∈ s.sluice.stoppedPlies then
    { s with sluice := { s.sluice with stoppedPlies := s.sluice.stoppedPlies.filter fun p => p != t.ply } }
  else s

/-- A legal ply-role mask (R351): one to five bits set, no three consecutive ones. -/
def LegalMask (m : BitVec 8) : Prop :=
  let n := ((List.range 8).filter fun i => m.getLsbD i).length
  1 ≤ n ∧ n ≤ 5 ∧ ∀ i < 6, ¬ (m.getLsbD i = true ∧ m.getLsbD (i + 1) = true ∧ m.getLsbD (i + 2) = true)

/-- A legal place for a partition among others (R355). -/
def LegalPlace (ps : List Partition) (first size : Nat) : Prop :=
  size ∈ [1, 2, 3, 4, 6, 12] ∧ first % size = 0 ∧ first + size ≤ 12 ∧ ∀ p ∈ ps, first + size ≤ p.first ∨ p.first + p.size ≤ first

/-- An interface that is locked or runs (R363). -/
def Fixed (v : Vf) : Prop := v.tdisp = .locked ∨ v.tdisp = .run

/-- The count kept for a key. -/
def countOf {α : Type} [DecidableEq α] (l : List (α × Nat)) (k : α) : Nat := ((l.find? fun e => decide (e.1 = k)).map (·.2)).getD 0

/-- The corrected errors of a report that fall to a bank, and to a core (R370). -/
def ofBank (l : List CorrectedErrors) (n : Nat) : Nat := (l.map fun | .bank m k => if m = n then k else 0 | .core .. => 0).sum
def ofCore (l : List CorrectedErrors) (c : CoreId) : Nat := (l.map fun | .bank .. => 0 | .core p m k => if c = ⟨p, m⟩ then k else 0).sum

/-- Where the entries of a structure of a partition that caches translations stand (R69), and how a telemetry answer names it. -/
def siteHome (part : Nat) : TlbSite → TlbHome
  | .core n => .core ⟨part, n⟩
  | .sector n => .sector part n
  | .fetcher n => .fetcher ⟨part, n⟩
  | .engine n => .engine part n
def homeRow : TlbHome → List Nat
  | .sector p n => [0, p, n]
  | .engine p n => [1, p, n]
  | .core c => [2, c.part, c.n]
  | .fetcher c => [2, c.part, c.n]

/-- Counts in a telemetry answer: how many follow, then each with what it belongs to. -/
def listed {α : Type} (key : α → List Nat) (l : List (α × Nat)) : List Nat := [l.length] ++ l.flatMap fun e => key e.1 ++ [e.2]

/-- The capability entries (R377, R378): identifier and length, in the order of the list. -/
def capTable : List (Nat × Nat) :=
  [(0x0001, 32), (0x0002, 16), (0x0003, 24), (0x0004, 16), (0x0010, 8), (0x0011, 8), (0x0012, 8), (0x0013, 8), (0x0014, 8), (0x0015, 8), (0x0016, 8),
   (0x0017, 8)]

/-- Where entry i of the list begins, as an offset in the BAR (log 58). -/
def capAt (i : Nat) : Nat := 0x100 + ((capTable.take i).map (·.2)).sum

/-- The function's mask unlinks entry i (R379). -/
def unlinked (v : Vf) (i : Nat) : Prop := ∃ e f, capTable[i]? = some e ∧ featureOfId e.1 = some f ∧ f ∈ v.masked

end Sys2Proof.Claims

/-- R2, R367: start-up accepts or refuses the configuration record and the images by their versions; R352:
sensor readings; R370: corrected errors are only counted, for their bank or core; R371: errors in clean lines, DRAM,
translations and core SRAM, after which the functions' lists report anew (R378); R81, R374: a change of a frame's owner; R346, R373: a torn-down or
reset context is gone, and the frames that a reset context owned are zeroed; R351, R353: a mask that is not legal
is refused, a legal one flushes the plies that change and comes into force at the re-enumeration.
Corners that no rule settles are the model's (log 37). -/
def Obligations.PlatformEvents : Prop :=
  ∀ (s : State),
    (∀ r : StartRecord, s.sluice.started = false →
      let good (i : Image) : Prop := i.valid = true ∧ r.minVersion ≤ i.version
      (r.recordValid = false ∨ r.version < s.sluice.counter →
        exec (.startUp r) s = .next { s with sluice := { s.sluice with started := true, recovery := true } }) ∧
      (r.recordValid = true → s.sluice.counter ≤ r.version →
        ∃ u, exec (.startUp r) s = .next u ∧ u.sluice.started = true ∧ u.sluice.counter = r.version ∧ u.sluice.retired = r.retired ∧ u.mem = s.mem ∧
          u.sluice.packingOk = r.packingOk ∧ u.sluice.testImage = (r.sluiceImage.test || r.heddleImage.test) ∧ u.sluice.trim = r.trim ∧
          u.sluice.identityKey = some r.identityKey ∧ u.sluice.defects = r.defects ∧ u.sluice.stepping = r.stepping ∧
          u.sluice.linkWidth = r.linkWidth ∧ u.sluice.linkRate = r.linkRate ∧ (∀ f ∈ r.retired, ∀ o ∈ u.owners, o.frame = f → o.retired = true) ∧
          (good r.sluiceImage ∧ good r.heddleImage → u.sluice.hostLink = true ∧ u.sluice.recovery = s.sluice.recovery) ∧
          (¬ good r.sluiceImage ∨ ¬ good r.heddleImage → u.sluice.recovery = true ∧ u.sluice.hostLink = s.sluice.hostLink))) ∧
    (∀ l, exec (.thermalSensorRead l) s = .next (l.foldl sensed s)) ∧
    (∀ l, ∃ b c, exec (.tableScrub l) s = .next { s with sluice := { s.sluice with corrected := b, correctedCores := c } } ∧
      (∀ n, countOf b n = countOf s.sluice.corrected n + ofBank l n) ∧ ∀ n, countOf c n = countOf s.sluice.correctedCores n + ofCore l n) ∧
    (∀ part core ha,
      let line (x : L1Sector) : Bool := x.core == ⟨part, core⟩ && x.ha / 256 == ha / 256
      ((∃ x ∈ s.l1, line x = true ∧ x.dirty = true) → exec (.uncorrectableError (.cleanL1 part core ha)) s = .next s.publish) ∧
      ((∀ x ∈ s.l1, line x = true → x.dirty = false) →
        exec (.uncorrectableError (.cleanL1 part core ha)) s = .next (State.publish { s with l1 := s.l1.filter fun x => !line x }))) ∧
    (∀ ha, exec (.uncorrectableError (.cleanL2 ha)) s = .next (State.publish { s with l2 := s.l2.filter fun l => !(l.ha == ha / 256 * 256 && !l.dirty) })) ∧
    (∀ part site ctx page, exec (.uncorrectableError (.tagResolvedTlb part site ctx page)) s =
      .next (State.publish { s with tlb := s.tlb.filter fun e => !(e.home == siteHome part site && e.ctx == ctx && e.page == page) })) ∧
    (∀ ha, ∃ u, exec (.uncorrectableError (.dramSector ha)) s = .next u ∧ (u.mark (ha / 64 * 64)).isSome = true ∧ u.mem = s.mem ∧
      ∃ f, u.owners.find? (fun x => x.frame == ha / 65536) = some f ∧ f.pending = true) ∧
    (∀ part core c, s.ctx? c.id = some c →
      ∃ u y, exec (.uncorrectableError (.coreSram part core c.id false)) s = .next u ∧ u.ctx? c.id = some y ∧ y.failed = true ∧
        (c.failed = false → ∀ w ∈ u.warps, w.id.ctx = c.id → (∃ g, s.grid? c.id w.id.grid = some g ∧ g.status ≠ 3) → w.stopped = true)) ∧
    (∀ frame owner c v, s.ctx? owner = some c → s.vf? c.vf = some v → v.part.isSome = true → v.part = (s.bankPart (frame * 65536)).map (·.n) → owner < 4096 →
      frame * 65536 < 192 * 2 ^ 30 → (∀ f ∈ s.owners, f.frame = frame → f.retired = false ∧ f.pending = false) →
      ∃ u f, exec (.frameOwnerChange frame owner) s = .next u ∧ u.mem = s.mem ∧ u.outbox = s.outbox ++ [.commandDone []] ∧
        u.owners.find? (fun x => x.frame == frame) = some f ∧ f.valid = true ∧ f.owner = owner ∧ f.retired = false ∧ ∀ l ∈ u.l2, l.ha / 65536 ≠ frame) ∧
    (∀ frame owner f, s.owners.find? (fun x => x.frame == frame) = some f → f.retired = true → exec (.frameOwnerChange frame owner) s = .next (s.send .commandError)) ∧
    (∀ c, s.ctx? c.id = some c →
      ∃ u, exec (.contextTeardown c.id) s = .next u ∧ u.ctx? c.id = none ∧ (∀ w ∈ u.warps, w.id.ctx ≠ c.id) ∧ (∀ t ∈ u.teams, t.id.ctx ≠ c.id) ∧
        (∀ e ∈ u.tlb, e.ctx ≠ c.id) ∧ (∀ x ∈ u.l1, x.ctx ≠ c.id) ∧ ∀ f ∈ u.owners, f.owner = c.id → f.valid = false) ∧
    (∀ v : Vf, s.vf? v.n = some v →
      (∀ r, s.sluice.change = some r →
        exec (.functionLevelReset v.n) s = .next { s with sluice := { s.sluice with pendingResets := s.sluice.pendingResets ++ [(v.n, false)] } }) ∧
      ∀ c, s.sluice.change = none → s.ctxsOf v.n = [c] →
        ∃ u y, exec (.functionLevelReset v.n) s = .next u ∧ u.vf? v.n = some y ∧ y.portalOpen = false ∧ y.queues = [] ∧ u.ctx? c = none ∧
          (∀ w ∈ u.warps, w.id.ctx ≠ c) ∧ (∀ e ∈ u.ingress, e.2 ≠ c) ∧ y.tdisp = .unlocked ∧
          ∀ a, (∃ f ∈ s.owners, f.frame = a / 65536 ∧ f.valid = true ∧ f.owner = c) → a < 2 ^ 52 → u.mem.read a = 0#8) ∧
    (∀ m : BitVec 8,
      (¬ LegalMask m → exec (.setRoles m) s = .next (s.send .commandError)) ∧
      (LegalMask m → s.sluice.change = none →
        ∃ u, exec (.setRoles m) s = .next u ∧ u.sluice.change = some ⟨s.sluice.roles, m⟩ ∧ u.sluice.roles = s.sluice.roles ∧
          ∀ l ∈ u.l2, l.far = false ∧ (s.sluice.roles.getLsbD (l.ha / 2 ^ 31 / 12) = m.getLsbD (l.ha / 2 ^ 31 / 12)))) ∧
    ∀ c : RoleChange, s.sluice.change = some c → s.sluice.pendingResets = [] → s.sluice.pendingPlaces = [] → s.sluice.pendingGroups = [] →
      (∀ p ∈ s.parts, ∀ v, p.turn = some v → s.waiting v = []) → ∃ u, exec .reEnumerate s = .next u ∧ u.sluice.roles = c.new ∧ u.sluice.change = none ∧ u.mem = s.mem ∧ u.warps = s.warps ∧
        u.outbox.getLast? = some (.commandDone [])

/-- R295, R311, R333, R348, R355, R357 to R361, R363, R369: what the management commands change, and
which they refuse: a place that is not legal, a partition that holds a context, a locked or
running interface (which goes to the error state), a value out of range, an untrusted endpoint.
R363, R377 to R379: a read of a BAR gives the capability list from 0x100, its entries in order,
linked past those that the function's mask unlinks. The places of the entries are the model's
(log 58). Corners that no rule settles are the model's (log 37). -/
def Obligations.ManagementCommands : Prop :=
  ∀ (s : State),
    (∀ first size n g, (¬ LegalPlace s.parts first size → exec (.partitionCreate first size) s = .next (s.send .commandError)) ∧
      (LegalPlace s.parts first size → n < 12 → s.part? n = none → (∀ k < n, s.part? k ≠ none) → g < 24 → (∀ p ∈ s.parts, g ∉ p.groups) →
        (∀ c ∈ s.sluice.pendingGroups, c.1 ≠ g) → (∀ k < g, (∃ p ∈ s.parts, k ∈ p.groups) ∨ ∃ c ∈ s.sluice.pendingGroups, c.1 = k) →
        ∃ u p, exec (.partitionCreate first size) s = .next u ∧ u.part? n = some p ∧ p.first = first ∧ p.size = size ∧ p.groups = [g] ∧ p.turn = none ∧
          u.mem = s.mem ∧ u.outbox.getLast? = some (.commandDone [n]))) ∧
    (∀ p : Partition, s.part? p.n = some p →
      let change (i : Instr) : Prop := i = .partitionRemove p.n ∨ ∃ first size, i = .partitionResize p.n first size
      (∀ i v, change i → v ∈ s.vfs → s.vf? v.n = some v → v.part = some p.n → Fixed v →
        ∃ u y, exec i s = .next u ∧ u.vf? v.n = some y ∧ y.tdisp = .error ∧ y.part = some p.n ∧ (u.part? p.n).isSome = true) ∧
      ((∀ v ∈ s.vfs, v.part = some p.n → s.vf? v.n = some v ∧ ¬ Fixed v) →
        (∀ i, change i → s.ctxsIn p.n ≠ [] → exec i s = .next (s.send .commandError)) ∧
        (s.ctxsIn p.n = [] →
          (∀ first size, LegalPlace (s.parts.filter fun q => q.n != p.n) first size →
            ∃ u q, exec (.partitionResize p.n first size) s = .next u ∧ u.part? p.n = some q ∧ q.first = first ∧ q.size = size ∧ q.groups = p.groups ∧ u.mem = s.mem) ∧
          ∃ u, exec (.partitionRemove p.n) s = .next u ∧ u.part? p.n = none ∧ (∀ v ∈ u.vfs, v.part ≠ some p.n) ∧ u.mem = s.mem)) ∧
      (∀ us, (us < 100 ∨ 10000 < us → exec (.checkpointIntervalSet p.n us) s = .next (s.send .commandError)) ∧
        (100 ≤ us → us ≤ 10000 →
          exec (.checkpointIntervalSet p.n us) s = .next ((s.setPart p.n fun q => { q with checkpointUs := us }).publish.send (.commandDone [])))) ∧
      (∀ table l ph valid,
        (p.placeInside table ⟨l, ph, valid⟩ = false → exec (.placeTableWrite p.n table l ph valid) s = .next (s.send .commandError)) ∧
        (p.placeInside table ⟨l, ph, valid⟩ = true → s.sluice.pendingPlaces = [] → s.sluice.pendingGroups = [] → s.placeReady ⟨p.n, table, ⟨l, ph, valid⟩⟩ = true →
          ∃ u q, exec (.placeTableWrite p.n table l ph valid) s = .next u ∧ u.part? p.n = some q ∧ u.sluice.pendingPlaces = [] ∧ u.mem = s.mem ∧
            (match table with | .core => q.coreTable | .cluster => q.clusterTable | .engine => q.engineTable).find? (fun e : PlaceEntry => e.logical == l) = some ⟨l, ph, valid⟩)) ∧
      ∀ g, s.sluice.pendingGroups = [] →
        (24 ≤ g ∨ (∃ q ∈ s.parts, q.n ≠ p.n ∧ q.groups.filter (· != g) = []) → exec (.copyEngineGroupAssign g p.n) s = .next (s.send .commandError)) ∧
        (g < 24 → (∀ q ∈ s.parts, q.n ≠ p.n → q.groups.filter (· != g) ≠ []) → s.sluice.pendingPlaces = [] → s.groupReady (g, p.n) = true →
          ∃ u, exec (.copyEngineGroupAssign g p.n) s = .next u ∧ u.mem = s.mem ∧ u.sluice.pendingGroups = [] ∧ ∀ q ∈ u.parts, g ∈ q.groups ↔ q.n = p.n)) ∧
    (∀ v : Vf, s.vf? v.n = some v →
      (∀ p, s.part? p.n = some p → Fixed v ∨ s.ctxsOf v.n ≠ [] →
        (¬ Fixed v → exec (.vfPartitionAssign v.n p.n) s = .next (s.send .commandError)) ∧
        (Fixed v → ∃ u y, exec (.vfPartitionAssign v.n p.n) s = .next u ∧ u.vf? v.n = some y ∧ y.tdisp = .error ∧ y.part = v.part)) ∧
      (∀ p, s.part? p.n = some p → ¬ Fixed v → s.ctxsOf v.n = [] →
        ∃ u y, exec (.vfPartitionAssign v.n p.n) s = .next u ∧ u.vf? v.n = some y ∧ y.part = some p.n ∧ u.mem = s.mem) ∧
      (∀ m, ∃ u y, exec (.wayMaskSet v.n m) s = .next u ∧ u.vf? v.n = some y ∧ y.wayMask = m ∧ u.mem = s.mem ∧
        ∀ l ∈ u.l2, l.ctx ∈ s.ctxsOf v.n → v.wayMask.getLsbD l.way = true → m.getLsbD l.way = true) ∧
      (∀ k f masked, featureOfId k = some f →
        (¬ Fixed v → exec (.featureMaskSet v.n k masked) s = .next ((s.setVf v.n fun v => { v with pendingMask := v.pendingMask ++ [(f, masked)] }).send (.commandDone []))) ∧
        (Fixed v → ∃ u y, exec (.featureMaskSet v.n k masked) s = .next u ∧ u.vf? v.n = some y ∧ y.tdisp = .error)) ∧
      (∀ us, (us < 500 ∨ 20000 < us → exec (.quantumSet v.n us) s = .next (s.send .commandError)) ∧
        (500 ≤ us → us ≤ 20000 → exec (.quantumSet v.n us) s = .next ((s.setVf v.n fun v => { v with quantumUs := us }).publish.send (.commandDone [])))) ∧
      ∀ a, exec (.queue0StatusAddressSet v.n a) s = .next ((s.setQueue v.n 0 fun q => { q with status := a }).send (.commandDone []))) ∧
    (∀ n, LinkEnabled s → 1 ≤ n → n ≤ 63 → (∀ v, s.vf? n = some v → v.portalOpen = false) →
      ∃ u v q, exec (.virtualFunctionEnable n) s = .next u ∧ u.vf? n = some v ∧ v.enabled = true ∧ v.portalOpen = true ∧ v.queues = [q] ∧ q.n = 0 ∧
        q.pasid = none ∧ q.buffer = [] ∧ q.expected = 0#32 ∧ u.mem = s.mem) ∧
    (∀ e : Endpoint, e.trusted = true →
      (let core (c : CoreId) : List Nat := [c.part, c.n]
       exec (.telemetryRead e) s = .next (s.send (.commandDone ([if s.sluice.recovery then 1 else 0, s.sluice.thermalEvents, s.sluice.retired.length,
        s.sluice.quarantined.length] ++ listed (fun n => [n]) s.sluice.corrected ++ listed core s.sluice.correctedCores ++
        listed (fun n => [n]) s.sluice.evictionFailures ++ listed core s.sluice.quarantinedCores ++
        listed homeRow s.sluice.quarantinedTlbs)))) ∧
      exec (.retiredFrameListCommand e .read) s = .next (s.send (.commandDone s.sluice.retired))) ∧
    (∀ (e : Endpoint) (c : RetiredCommand), e.trusted = false →
      exec (.telemetryRead e) s = .next (s.send .commandError) ∧ exec (.retiredFrameListCommand e c) s = .next (s.send .commandError)) ∧
    (∀ (v : Vf) (off n : Nat) (rest : List Move), s.vf? v.n = some v → v.enabled = true → LinkEnabled s → s.agenda = .barRead v.n off n :: rest →
      (∀ p ∈ s.parts, s.turnDue p = false) → ∃ u bytes, step s = .next u ∧ u.mem = s.mem ∧ u.warps = s.tick.warps ∧ u.outbox = s.outbox ++ [.readData bytes false] ∧
        bytes.length = n ∧ ∀ k < n, (off + k < 0x100 → bytes[k]? = some 0#8) ∧
          (0x100 ≤ off + k → off + k < capAt 12 → bytes[k]? = v.capList[off + k - 0x100]?)) ∧
    ∀ (v : Vf) (i id length : Nat), capTable[i]? = some (id, length) →
      let at' (k n : Nat) : Nat := leAt v.capList (capAt i - 0x100 + k) n
      at' 0 2 = id ∧ at' 2 1 = 1 ∧ at' 3 1 = length ∧
      (∀ j, i < j → j < 12 → ¬ unlinked v j → (∀ m, i < m → m < j → unlinked v m) → at' 4 4 = capAt j) ∧
      ((∀ m, i < m → m < 12 → unlinked v m) → at' 4 4 = 0) ∧
      (i = 0 → at' 8 2 = v.caps.stepping % 2 ^ 16 ∧ at' 10 2 = v.caps.roles.toNat ∧ at' 12 4 = v.caps.cores % 2 ^ 32 ∧ at' 16 1 = v.caps.linkWidth % 2 ^ 8 ∧
        at' 17 1 = v.caps.linkRate % 2 ^ 8 ∧ at' 18 1 = v.caps.device % 2 ^ 8 ∧ at' 19 1 % 2 = (if v.caps.packingOk = true then 1 else 0)) ∧
      (i = 1 → at' 8 1 = v.caps.first % 2 ^ 8 ∧ at' 9 1 = v.caps.size % 2 ^ 8) ∧
      (i = 2 → at' 8 4 = v.caps.quantumUs % 2 ^ 32 ∧ at' 12 4 = v.caps.checkpointUs % 2 ^ 32 ∧ at' 16 8 = v.caps.boundUs % 2 ^ 64) ∧
      (i = 3 → at' 8 4 = v.caps.retired % 2 ^ 32 ∧ at' 12 4 = v.caps.quarantined % 2 ^ 32)

/-! ### Attestation and link protection (R362, R363, R368) -/

namespace Sys2Proof.Claims

/-- The SPDM requests: the state that each needs, the state that it leaves, and the message that answers it (the order is log 20). -/
def spdmRow (s : State) (e : Endpoint) : Instr → Option (Bool × Spdm × OutMsg)
  | .getVersion _ => some (true, { s.spdm with version := true, capabilities := false, algorithms := false, handshake := none }, .spdm 0x84 (Config.spdmAnswer 0x84 []))
  | .getCapabilities _ => some (s.spdm.version, { s.spdm with capabilities := true }, .spdm 0xE1 (Config.spdmAnswer 0xE1 []))
  | .negotiateAlgorithms _ => some (s.spdm.capabilities, { s.spdm with algorithms := true }, .spdm 0xE3 (Config.spdmAnswer 0xE3 []))
  | .getDigests _ => some (s.spdm.algorithms, s.spdm, .spdm 0x81 (Config.spdmAnswer 0x81 []))
  | .getCertificate _ off len => some (s.spdm.algorithms, s.spdm, .certificate ((List.range len).map fun i => Config.certificate (off + i)))
  | .challenge _ nonce => some (s.spdm.algorithms && s.sluice.identityKey.isSome, s.spdm, .signed (Config.signature [s.sluice.identityKey.getD 0, 0x83, nonce]))
  | .keyExchange _ x m => some (s.spdm.algorithms, { s.spdm with handshake := some m }, .spdm 0xE4 (Config.spdmAnswer 0xE4 [x]))
  | .finish _ ok => some (s.spdm.handshake.isSome && ok, { s.spdm with handshake := none, session := true, keyPhase := 0 }, .spdm 0xE5 (Config.spdmAnswer 0xE5 []))
  | .heartbeat _ => some (s.spdm.session && e.secured, s.spdm, .spdm 0xE8 (Config.spdmAnswer 0xE8 []))
  | .keyUpdate _ => some (s.spdm.session && e.secured, { s.spdm with keyPhase := s.spdm.keyPhase + 1 }, .spdm 0xE9 (Config.spdmAnswer 0xE9 []))
  | .endSession _ => some (s.spdm.session && e.secured, { s.spdm with session := false }, .spdm 0xEC (Config.spdmAnswer 0xEC []))
  | _ => none

/-- The endpoint of a security message. -/
def endpointOf : Instr → Option Endpoint
  | .getVersion e | .getCapabilities e | .negotiateAlgorithms e | .getDigests e | .getCertificate e _ _ | .challenge e _ | .getMeasurements e _ _
  | .keyExchange e _ _ | .finish e _ | .heartbeat e | .keyUpdate e | .endSession e | .query e _ | .keyProg e _ _ | .kSetGo e _ | .kSetStop e _
  | .tdispMessage e _ _ => some e
  | _ => none

/-- The messages that are accepted only inside a secured session (R368). -/
def sessionOnly : Instr → Bool
  | .query _ _ | .keyProg _ _ _ | .kSetGo _ _ | .kSetStop _ _ | .tdispMessage _ _ _ => true
  | _ => false

/-- What a TDISP message leaves (log 20). -/
def interfaceAfter (x : TdispState) : TdispMessage → Option TdispState
  | .lockInterface => if x = .unlocked then some .locked else none
  | .startInterface => if x = .locked then some .run else none
  | .stopInterface => some .unlocked
  | .getState => some x

end Sys2Proof.Claims

/-- R368: an SPDM request of a trusted endpoint in the state that it needs (the model's order, log 20) is answered, and otherwise gives an error and
changes nothing; IDE_KM and TDISP messages outside a secured session are answered with an error and change nothing; inside one they program,
start, stop and report the streams (R362) and the interface (R363). -/
def Obligations.SecurityMessages : Prop :=
  ∀ (s : State) (i : Instr) (e : Endpoint), endpointOf i = some e →
    (∀ ready x m, spdmRow s e i = some (ready, x, m) →
      (e.trusted = true → ready = true → exec i s = .next { s with spdm := x, outbox := s.outbox ++ [m] }) ∧
      (e.trusted = false ∨ ready = false → exec i s = .next (s.send .commandError))) ∧
    (∀ vf n, i = .getMeasurements e vf n →
      (e.trusted = true → s.spdm.algorithms = true →
        (n < 1 ∨ 6 < n → exec i s = .next (s.send .commandError)) ∧
        (1 ≤ n → n ≤ 6 → ∃ m, m.head? = some n ∧ exec i s = .next (s.send (.measurement n (Config.digest m))))) ∧
      (e.trusted = false ∨ s.spdm.algorithms = false → exec i s = .next (s.send .commandError))) ∧
    (sessionOnly i = true → e.trusted = false ∨ e.secured = false ∨ s.spdm.session = false → exec i s = .next (s.send .commandError)) ∧
    (e.trusted = true → e.secured = true → s.spdm.session = true →
      (∀ n key, i = .keyProg e n key → ∃ u, exec i s = .next u ∧ u.outbox = s.outbox ++ [.commandDone [n]] ∧
        (∃ k, u.spdm.streams.find? (fun x => x.n == n) = some k ∧ k.key = key) ∧
        ∀ m, m ≠ n → u.spdm.streams.find? (fun x => x.n == m) = s.spdm.streams.find? fun x => x.n == m) ∧
      (∀ n, i = .query e n → exec i s = .next (s.send (.commandDone (match s.spdm.streams.find? fun x => x.n == n with
        | none => [n, 0, 0]
        | some k => [n, 1, if k.running then 1 else 0])))) ∧
      (∀ n run, i = (if run = true then Instr.kSetGo e n else .kSetStop e n) →
        (s.spdm.streams.find? (fun x => x.n == n) = none → exec i s = .next (s.send .commandError)) ∧
        ∀ k, s.spdm.streams.find? (fun x => x.n == n) = some k →
          ∃ u, exec i s = .next u ∧ u.outbox = s.outbox ++ [.commandDone [n]] ∧ u.spdm.streams.find? (fun x => x.n == n) = some { k with running := run }) ∧
      ∀ vf m, i = .tdispMessage e vf m →
        ((s.vf? vf).bind (fun v => interfaceAfter v.tdisp m) = none → exec i s = .next (s.send .commandError)) ∧
        ∀ v t, s.vf? vf = some v → interfaceAfter v.tdisp m = some t →
          ∃ u, exec i s = .next u ∧ u.vf? vf = some { v with tdisp := t } ∧ u.mem = s.mem)
end

