-- ==== Sys2Proof/Laws/State.lean ====
section
/-!
SUPPORT. One lemma per field per update of a state or a warp: what an update leaves as it was.
-/

namespace Sys2Proof.Machine

/-! ### Updates of a state -/

@[simp] theorem State.setW_clock (s : State) (f : Warp → Warp) : (s.setW f).clock = s.clock := rfl
@[simp] theorem State.setW_mem (s : State) (f : Warp → Warp) : (s.setW f).mem = s.mem := rfl
@[simp] theorem State.setW_marks (s : State) (f : Warp → Warp) : (s.setW f).marks = s.marks := rfl
@[simp] theorem State.setW_l1 (s : State) (f : Warp → Warp) : (s.setW f).l1 = s.l1 := rfl
@[simp] theorem State.setW_l2 (s : State) (f : Warp → Warp) : (s.setW f).l2 = s.l2 := rfl
@[simp] theorem State.setW_tlb (s : State) (f : Warp → Warp) : (s.setW f).tlb = s.tlb := rfl
@[simp] theorem State.setW_owners (s : State) (f : Warp → Warp) : (s.setW f).owners = s.owners := rfl
@[simp] theorem State.setW_far (s : State) (f : Warp → Warp) : (s.setW f).far = s.far := rfl
@[simp] theorem State.setW_rest (s : State) (f : Warp → Warp) : (s.setW f).rest = s.rest := rfl
@[simp] theorem State.setW_teams (s : State) (f : Warp → Warp) : (s.setW f).teams = s.teams := rfl
@[simp] theorem State.setW_grids (s : State) (f : Warp → Warp) : (s.setW f).grids = s.grids := rfl
@[simp] theorem State.setW_ctxs (s : State) (f : Warp → Warp) : (s.setW f).ctxs = s.ctxs := rfl
@[simp] theorem State.setW_cores (s : State) (f : Warp → Warp) : (s.setW f).cores = s.cores := rfl
@[simp] theorem State.setW_stores (s : State) (f : Warp → Warp) : (s.setW f).stores = s.stores := rfl
@[simp] theorem State.setW_ops (s : State) (f : Warp → Warp) : (s.setW f).ops = s.ops := rfl
@[simp] theorem State.setW_copies (s : State) (f : Warp → Warp) : (s.setW f).copies = s.copies := rfl
@[simp] theorem State.setW_latches (s : State) (f : Warp → Warp) : (s.setW f).latches = s.latches := rfl
@[simp] theorem State.setW_vfs (s : State) (f : Warp → Warp) : (s.setW f).vfs = s.vfs := rfl
@[simp] theorem State.setW_pf (s : State) (f : Warp → Warp) : (s.setW f).pf = s.pf := rfl
@[simp] theorem State.setW_parts (s : State) (f : Warp → Warp) : (s.setW f).parts = s.parts := rfl
@[simp] theorem State.setW_links (s : State) (f : Warp → Warp) : (s.setW f).links = s.links := rfl
@[simp] theorem State.setW_cutAt (s : State) (f : Warp → Warp) : (s.setW f).cutAt = s.cutAt := rfl
@[simp] theorem State.setW_routes (s : State) (f : Warp → Warp) : (s.setW f).routes = s.routes := rfl
@[simp] theorem State.setW_ingress (s : State) (f : Warp → Warp) : (s.setW f).ingress = s.ingress := rfl
@[simp] theorem State.setW_sluice (s : State) (f : Warp → Warp) : (s.setW f).sluice = s.sluice := rfl
@[simp] theorem State.setW_spdm (s : State) (f : Warp → Warp) : (s.setW f).spdm = s.spdm := rfl
@[simp] theorem State.setW_outbox (s : State) (f : Warp → Warp) : (s.setW f).outbox = s.outbox := rfl
@[simp] theorem State.setW_round (s : State) (f : Warp → Warp) : (s.setW f).round = s.round := rfl
@[simp] theorem State.setW_issued (s : State) (f : Warp → Warp) : (s.setW f).issued = s.issued := rfl
@[simp] theorem State.setW_spent (s : State) (f : Warp → Warp) : (s.setW f).spent = s.spent := rfl
@[simp] theorem State.setW_faulted (s : State) (f : Warp → Warp) : (s.setW f).faulted = s.faulted := rfl
@[simp] theorem State.setW_unitWaits (s : State) (f : Warp → Warp) : (s.setW f).unitWaits = s.unitWaits := rfl
@[simp] theorem State.setW_agenda (s : State) (f : Warp → Warp) : (s.setW f).agenda = s.agenda := rfl
@[simp] theorem State.setW_eventFirst (s : State) (f : Warp → Warp) : (s.setW f).eventFirst = s.eventFirst := rfl
@[simp] theorem State.setW_freeIx (s : State) (f : Warp → Warp) : (s.setW f).freeIx = s.freeIx := rfl
@[simp] theorem State.setW_nextId (s : State) (f : Warp → Warp) : (s.setW f).nextId = s.nextId := rfl

@[simp] theorem State.setTeam_clock (s : State) (id : TeamId) (f : Team → Team) : (s.setTeam id f).clock = s.clock := rfl
@[simp] theorem State.setTeam_mem (s : State) (id : TeamId) (f : Team → Team) : (s.setTeam id f).mem = s.mem := rfl
@[simp] theorem State.setTeam_marks (s : State) (id : TeamId) (f : Team → Team) : (s.setTeam id f).marks = s.marks := rfl
@[simp] theorem State.setTeam_l1 (s : State) (id : TeamId) (f : Team → Team) : (s.setTeam id f).l1 = s.l1 := rfl
@[simp] theorem State.setTeam_l2 (s : State) (id : TeamId) (f : Team → Team) : (s.setTeam id f).l2 = s.l2 := rfl
@[simp] theorem State.setTeam_tlb (s : State) (id : TeamId) (f : Team → Team) : (s.setTeam id f).tlb = s.tlb := rfl
@[simp] theorem State.setTeam_owners (s : State) (id : TeamId) (f : Team → Team) : (s.setTeam id f).owners = s.owners := rfl
@[simp] theorem State.setTeam_far (s : State) (id : TeamId) (f : Team → Team) : (s.setTeam id f).far = s.far := rfl
@[simp] theorem State.setTeam_w (s : State) (id : TeamId) (f : Team → Team) : (s.setTeam id f).w = s.w := rfl
@[simp] theorem State.setTeam_rest (s : State) (id : TeamId) (f : Team → Team) : (s.setTeam id f).rest = s.rest := rfl
@[simp] theorem State.setTeam_grids (s : State) (id : TeamId) (f : Team → Team) : (s.setTeam id f).grids = s.grids := rfl
@[simp] theorem State.setTeam_ctxs (s : State) (id : TeamId) (f : Team → Team) : (s.setTeam id f).ctxs = s.ctxs := rfl
@[simp] theorem State.setTeam_cores (s : State) (id : TeamId) (f : Team → Team) : (s.setTeam id f).cores = s.cores := rfl
@[simp] theorem State.setTeam_stores (s : State) (id : TeamId) (f : Team → Team) : (s.setTeam id f).stores = s.stores := rfl
@[simp] theorem State.setTeam_ops (s : State) (id : TeamId) (f : Team → Team) : (s.setTeam id f).ops = s.ops := rfl
@[simp] theorem State.setTeam_copies (s : State) (id : TeamId) (f : Team → Team) : (s.setTeam id f).copies = s.copies := rfl
@[simp] theorem State.setTeam_latches (s : State) (id : TeamId) (f : Team → Team) : (s.setTeam id f).latches = s.latches := rfl
@[simp] theorem State.setTeam_vfs (s : State) (id : TeamId) (f : Team → Team) : (s.setTeam id f).vfs = s.vfs := rfl
@[simp] theorem State.setTeam_pf (s : State) (id : TeamId) (f : Team → Team) : (s.setTeam id f).pf = s.pf := rfl
@[simp] theorem State.setTeam_parts (s : State) (id : TeamId) (f : Team → Team) : (s.setTeam id f).parts = s.parts := rfl
@[simp] theorem State.setTeam_links (s : State) (id : TeamId) (f : Team → Team) : (s.setTeam id f).links = s.links := rfl
@[simp] theorem State.setTeam_cutAt (s : State) (id : TeamId) (f : Team → Team) : (s.setTeam id f).cutAt = s.cutAt := rfl
@[simp] theorem State.setTeam_routes (s : State) (id : TeamId) (f : Team → Team) : (s.setTeam id f).routes = s.routes := rfl
@[simp] theorem State.setTeam_ingress (s : State) (id : TeamId) (f : Team → Team) : (s.setTeam id f).ingress = s.ingress := rfl
@[simp] theorem State.setTeam_sluice (s : State) (id : TeamId) (f : Team → Team) : (s.setTeam id f).sluice = s.sluice := rfl
@[simp] theorem State.setTeam_spdm (s : State) (id : TeamId) (f : Team → Team) : (s.setTeam id f).spdm = s.spdm := rfl
@[simp] theorem State.setTeam_outbox (s : State) (id : TeamId) (f : Team → Team) : (s.setTeam id f).outbox = s.outbox := rfl
@[simp] theorem State.setTeam_round (s : State) (id : TeamId) (f : Team → Team) : (s.setTeam id f).round = s.round := rfl
@[simp] theorem State.setTeam_issued (s : State) (id : TeamId) (f : Team → Team) : (s.setTeam id f).issued = s.issued := rfl
@[simp] theorem State.setTeam_spent (s : State) (id : TeamId) (f : Team → Team) : (s.setTeam id f).spent = s.spent := rfl
@[simp] theorem State.setTeam_faulted (s : State) (id : TeamId) (f : Team → Team) : (s.setTeam id f).faulted = s.faulted := rfl
@[simp] theorem State.setTeam_unitWaits (s : State) (id : TeamId) (f : Team → Team) : (s.setTeam id f).unitWaits = s.unitWaits := rfl
@[simp] theorem State.setTeam_agenda (s : State) (id : TeamId) (f : Team → Team) : (s.setTeam id f).agenda = s.agenda := rfl
@[simp] theorem State.setTeam_eventFirst (s : State) (id : TeamId) (f : Team → Team) : (s.setTeam id f).eventFirst = s.eventFirst := rfl
@[simp] theorem State.setTeam_freeIx (s : State) (id : TeamId) (f : Team → Team) : (s.setTeam id f).freeIx = s.freeIx := rfl
@[simp] theorem State.setTeam_nextId (s : State) (id : TeamId) (f : Team → Team) : (s.setTeam id f).nextId = s.nextId := rfl

@[simp] theorem State.setCtx_clock (s : State) (id : Nat) (f : Ctx → Ctx) : (s.setCtx id f).clock = s.clock := rfl
@[simp] theorem State.setCtx_mem (s : State) (id : Nat) (f : Ctx → Ctx) : (s.setCtx id f).mem = s.mem := rfl
@[simp] theorem State.setCtx_marks (s : State) (id : Nat) (f : Ctx → Ctx) : (s.setCtx id f).marks = s.marks := rfl
@[simp] theorem State.setCtx_l1 (s : State) (id : Nat) (f : Ctx → Ctx) : (s.setCtx id f).l1 = s.l1 := rfl
@[simp] theorem State.setCtx_l2 (s : State) (id : Nat) (f : Ctx → Ctx) : (s.setCtx id f).l2 = s.l2 := rfl
@[simp] theorem State.setCtx_tlb (s : State) (id : Nat) (f : Ctx → Ctx) : (s.setCtx id f).tlb = s.tlb := rfl
@[simp] theorem State.setCtx_owners (s : State) (id : Nat) (f : Ctx → Ctx) : (s.setCtx id f).owners = s.owners := rfl
@[simp] theorem State.setCtx_far (s : State) (id : Nat) (f : Ctx → Ctx) : (s.setCtx id f).far = s.far := rfl
@[simp] theorem State.setCtx_w (s : State) (id : Nat) (f : Ctx → Ctx) : (s.setCtx id f).w = s.w := rfl
@[simp] theorem State.setCtx_rest (s : State) (id : Nat) (f : Ctx → Ctx) : (s.setCtx id f).rest = s.rest := rfl
@[simp] theorem State.setCtx_teams (s : State) (id : Nat) (f : Ctx → Ctx) : (s.setCtx id f).teams = s.teams := rfl
@[simp] theorem State.setCtx_grids (s : State) (id : Nat) (f : Ctx → Ctx) : (s.setCtx id f).grids = s.grids := rfl
@[simp] theorem State.setCtx_cores (s : State) (id : Nat) (f : Ctx → Ctx) : (s.setCtx id f).cores = s.cores := rfl
@[simp] theorem State.setCtx_stores (s : State) (id : Nat) (f : Ctx → Ctx) : (s.setCtx id f).stores = s.stores := rfl
@[simp] theorem State.setCtx_ops (s : State) (id : Nat) (f : Ctx → Ctx) : (s.setCtx id f).ops = s.ops := rfl
@[simp] theorem State.setCtx_copies (s : State) (id : Nat) (f : Ctx → Ctx) : (s.setCtx id f).copies = s.copies := rfl
@[simp] theorem State.setCtx_latches (s : State) (id : Nat) (f : Ctx → Ctx) : (s.setCtx id f).latches = s.latches := rfl
@[simp] theorem State.setCtx_vfs (s : State) (id : Nat) (f : Ctx → Ctx) : (s.setCtx id f).vfs = s.vfs := rfl
@[simp] theorem State.setCtx_pf (s : State) (id : Nat) (f : Ctx → Ctx) : (s.setCtx id f).pf = s.pf := rfl
@[simp] theorem State.setCtx_parts (s : State) (id : Nat) (f : Ctx → Ctx) : (s.setCtx id f).parts = s.parts := rfl
@[simp] theorem State.setCtx_links (s : State) (id : Nat) (f : Ctx → Ctx) : (s.setCtx id f).links = s.links := rfl
@[simp] theorem State.setCtx_cutAt (s : State) (id : Nat) (f : Ctx → Ctx) : (s.setCtx id f).cutAt = s.cutAt := rfl
@[simp] theorem State.setCtx_routes (s : State) (id : Nat) (f : Ctx → Ctx) : (s.setCtx id f).routes = s.routes := rfl
@[simp] theorem State.setCtx_ingress (s : State) (id : Nat) (f : Ctx → Ctx) : (s.setCtx id f).ingress = s.ingress := rfl
@[simp] theorem State.setCtx_sluice (s : State) (id : Nat) (f : Ctx → Ctx) : (s.setCtx id f).sluice = s.sluice := rfl
@[simp] theorem State.setCtx_spdm (s : State) (id : Nat) (f : Ctx → Ctx) : (s.setCtx id f).spdm = s.spdm := rfl
@[simp] theorem State.setCtx_outbox (s : State) (id : Nat) (f : Ctx → Ctx) : (s.setCtx id f).outbox = s.outbox := rfl
@[simp] theorem State.setCtx_round (s : State) (id : Nat) (f : Ctx → Ctx) : (s.setCtx id f).round = s.round := rfl
@[simp] theorem State.setCtx_issued (s : State) (id : Nat) (f : Ctx → Ctx) : (s.setCtx id f).issued = s.issued := rfl
@[simp] theorem State.setCtx_spent (s : State) (id : Nat) (f : Ctx → Ctx) : (s.setCtx id f).spent = s.spent := rfl
@[simp] theorem State.setCtx_faulted (s : State) (id : Nat) (f : Ctx → Ctx) : (s.setCtx id f).faulted = s.faulted := rfl
@[simp] theorem State.setCtx_unitWaits (s : State) (id : Nat) (f : Ctx → Ctx) : (s.setCtx id f).unitWaits = s.unitWaits := rfl
@[simp] theorem State.setCtx_agenda (s : State) (id : Nat) (f : Ctx → Ctx) : (s.setCtx id f).agenda = s.agenda := rfl
@[simp] theorem State.setCtx_eventFirst (s : State) (id : Nat) (f : Ctx → Ctx) : (s.setCtx id f).eventFirst = s.eventFirst := rfl
@[simp] theorem State.setCtx_freeIx (s : State) (id : Nat) (f : Ctx → Ctx) : (s.setCtx id f).freeIx = s.freeIx := rfl
@[simp] theorem State.setCtx_nextId (s : State) (id : Nat) (f : Ctx → Ctx) : (s.setCtx id f).nextId = s.nextId := rfl

@[simp] theorem State.setVf_clock (s : State) (id : Nat) (f : Vf → Vf) : (s.setVf id f).clock = s.clock := rfl
@[simp] theorem State.setVf_mem (s : State) (id : Nat) (f : Vf → Vf) : (s.setVf id f).mem = s.mem := rfl
@[simp] theorem State.setVf_marks (s : State) (id : Nat) (f : Vf → Vf) : (s.setVf id f).marks = s.marks := rfl
@[simp] theorem State.setVf_l1 (s : State) (id : Nat) (f : Vf → Vf) : (s.setVf id f).l1 = s.l1 := rfl
@[simp] theorem State.setVf_l2 (s : State) (id : Nat) (f : Vf → Vf) : (s.setVf id f).l2 = s.l2 := rfl
@[simp] theorem State.setVf_tlb (s : State) (id : Nat) (f : Vf → Vf) : (s.setVf id f).tlb = s.tlb := rfl
@[simp] theorem State.setVf_owners (s : State) (id : Nat) (f : Vf → Vf) : (s.setVf id f).owners = s.owners := rfl
@[simp] theorem State.setVf_far (s : State) (id : Nat) (f : Vf → Vf) : (s.setVf id f).far = s.far := rfl
@[simp] theorem State.setVf_w (s : State) (id : Nat) (f : Vf → Vf) : (s.setVf id f).w = s.w := rfl
@[simp] theorem State.setVf_rest (s : State) (id : Nat) (f : Vf → Vf) : (s.setVf id f).rest = s.rest := rfl
@[simp] theorem State.setVf_teams (s : State) (id : Nat) (f : Vf → Vf) : (s.setVf id f).teams = s.teams := rfl
@[simp] theorem State.setVf_grids (s : State) (id : Nat) (f : Vf → Vf) : (s.setVf id f).grids = s.grids := rfl
@[simp] theorem State.setVf_ctxs (s : State) (id : Nat) (f : Vf → Vf) : (s.setVf id f).ctxs = s.ctxs := rfl
@[simp] theorem State.setVf_cores (s : State) (id : Nat) (f : Vf → Vf) : (s.setVf id f).cores = s.cores := rfl
@[simp] theorem State.setVf_stores (s : State) (id : Nat) (f : Vf → Vf) : (s.setVf id f).stores = s.stores := rfl
@[simp] theorem State.setVf_ops (s : State) (id : Nat) (f : Vf → Vf) : (s.setVf id f).ops = s.ops := rfl
@[simp] theorem State.setVf_copies (s : State) (id : Nat) (f : Vf → Vf) : (s.setVf id f).copies = s.copies := rfl
@[simp] theorem State.setVf_latches (s : State) (id : Nat) (f : Vf → Vf) : (s.setVf id f).latches = s.latches := rfl
@[simp] theorem State.setVf_pf (s : State) (id : Nat) (f : Vf → Vf) : (s.setVf id f).pf = s.pf := rfl
@[simp] theorem State.setVf_parts (s : State) (id : Nat) (f : Vf → Vf) : (s.setVf id f).parts = s.parts := rfl
@[simp] theorem State.setVf_links (s : State) (id : Nat) (f : Vf → Vf) : (s.setVf id f).links = s.links := rfl
@[simp] theorem State.setVf_cutAt (s : State) (id : Nat) (f : Vf → Vf) : (s.setVf id f).cutAt = s.cutAt := rfl
@[simp] theorem State.setVf_routes (s : State) (id : Nat) (f : Vf → Vf) : (s.setVf id f).routes = s.routes := rfl
@[simp] theorem State.setVf_ingress (s : State) (id : Nat) (f : Vf → Vf) : (s.setVf id f).ingress = s.ingress := rfl
@[simp] theorem State.setVf_sluice (s : State) (id : Nat) (f : Vf → Vf) : (s.setVf id f).sluice = s.sluice := rfl
@[simp] theorem State.setVf_spdm (s : State) (id : Nat) (f : Vf → Vf) : (s.setVf id f).spdm = s.spdm := rfl
@[simp] theorem State.setVf_outbox (s : State) (id : Nat) (f : Vf → Vf) : (s.setVf id f).outbox = s.outbox := rfl
@[simp] theorem State.setVf_round (s : State) (id : Nat) (f : Vf → Vf) : (s.setVf id f).round = s.round := rfl
@[simp] theorem State.setVf_issued (s : State) (id : Nat) (f : Vf → Vf) : (s.setVf id f).issued = s.issued := rfl
@[simp] theorem State.setVf_spent (s : State) (id : Nat) (f : Vf → Vf) : (s.setVf id f).spent = s.spent := rfl
@[simp] theorem State.setVf_faulted (s : State) (id : Nat) (f : Vf → Vf) : (s.setVf id f).faulted = s.faulted := rfl
@[simp] theorem State.setVf_unitWaits (s : State) (id : Nat) (f : Vf → Vf) : (s.setVf id f).unitWaits = s.unitWaits := rfl
@[simp] theorem State.setVf_agenda (s : State) (id : Nat) (f : Vf → Vf) : (s.setVf id f).agenda = s.agenda := rfl
@[simp] theorem State.setVf_eventFirst (s : State) (id : Nat) (f : Vf → Vf) : (s.setVf id f).eventFirst = s.eventFirst := rfl
@[simp] theorem State.setVf_freeIx (s : State) (id : Nat) (f : Vf → Vf) : (s.setVf id f).freeIx = s.freeIx := rfl
@[simp] theorem State.setVf_nextId (s : State) (id : Nat) (f : Vf → Vf) : (s.setVf id f).nextId = s.nextId := rfl

@[simp] theorem State.setPart_clock (s : State) (id : Nat) (f : Partition → Partition) : (s.setPart id f).clock = s.clock := rfl
@[simp] theorem State.setPart_mem (s : State) (id : Nat) (f : Partition → Partition) : (s.setPart id f).mem = s.mem := rfl
@[simp] theorem State.setPart_marks (s : State) (id : Nat) (f : Partition → Partition) : (s.setPart id f).marks = s.marks := rfl
@[simp] theorem State.setPart_l1 (s : State) (id : Nat) (f : Partition → Partition) : (s.setPart id f).l1 = s.l1 := rfl
@[simp] theorem State.setPart_l2 (s : State) (id : Nat) (f : Partition → Partition) : (s.setPart id f).l2 = s.l2 := rfl
@[simp] theorem State.setPart_tlb (s : State) (id : Nat) (f : Partition → Partition) : (s.setPart id f).tlb = s.tlb := rfl
@[simp] theorem State.setPart_owners (s : State) (id : Nat) (f : Partition → Partition) : (s.setPart id f).owners = s.owners := rfl
@[simp] theorem State.setPart_far (s : State) (id : Nat) (f : Partition → Partition) : (s.setPart id f).far = s.far := rfl
@[simp] theorem State.setPart_w (s : State) (id : Nat) (f : Partition → Partition) : (s.setPart id f).w = s.w := rfl
@[simp] theorem State.setPart_rest (s : State) (id : Nat) (f : Partition → Partition) : (s.setPart id f).rest = s.rest := rfl
@[simp] theorem State.setPart_teams (s : State) (id : Nat) (f : Partition → Partition) : (s.setPart id f).teams = s.teams := rfl
@[simp] theorem State.setPart_grids (s : State) (id : Nat) (f : Partition → Partition) : (s.setPart id f).grids = s.grids := rfl
@[simp] theorem State.setPart_ctxs (s : State) (id : Nat) (f : Partition → Partition) : (s.setPart id f).ctxs = s.ctxs := rfl
@[simp] theorem State.setPart_cores (s : State) (id : Nat) (f : Partition → Partition) : (s.setPart id f).cores = s.cores := rfl
@[simp] theorem State.setPart_stores (s : State) (id : Nat) (f : Partition → Partition) : (s.setPart id f).stores = s.stores := rfl
@[simp] theorem State.setPart_ops (s : State) (id : Nat) (f : Partition → Partition) : (s.setPart id f).ops = s.ops := rfl
@[simp] theorem State.setPart_copies (s : State) (id : Nat) (f : Partition → Partition) : (s.setPart id f).copies = s.copies := rfl
@[simp] theorem State.setPart_latches (s : State) (id : Nat) (f : Partition → Partition) : (s.setPart id f).latches = s.latches := rfl
@[simp] theorem State.setPart_vfs (s : State) (id : Nat) (f : Partition → Partition) : (s.setPart id f).vfs = s.vfs := rfl
@[simp] theorem State.setPart_pf (s : State) (id : Nat) (f : Partition → Partition) : (s.setPart id f).pf = s.pf := rfl
@[simp] theorem State.setPart_links (s : State) (id : Nat) (f : Partition → Partition) : (s.setPart id f).links = s.links := rfl
@[simp] theorem State.setPart_cutAt (s : State) (id : Nat) (f : Partition → Partition) : (s.setPart id f).cutAt = s.cutAt := rfl
@[simp] theorem State.setPart_routes (s : State) (id : Nat) (f : Partition → Partition) : (s.setPart id f).routes = s.routes := rfl
@[simp] theorem State.setPart_ingress (s : State) (id : Nat) (f : Partition → Partition) : (s.setPart id f).ingress = s.ingress := rfl
@[simp] theorem State.setPart_sluice (s : State) (id : Nat) (f : Partition → Partition) : (s.setPart id f).sluice = s.sluice := rfl
@[simp] theorem State.setPart_spdm (s : State) (id : Nat) (f : Partition → Partition) : (s.setPart id f).spdm = s.spdm := rfl
@[simp] theorem State.setPart_outbox (s : State) (id : Nat) (f : Partition → Partition) : (s.setPart id f).outbox = s.outbox := rfl
@[simp] theorem State.setPart_round (s : State) (id : Nat) (f : Partition → Partition) : (s.setPart id f).round = s.round := rfl
@[simp] theorem State.setPart_issued (s : State) (id : Nat) (f : Partition → Partition) : (s.setPart id f).issued = s.issued := rfl
@[simp] theorem State.setPart_spent (s : State) (id : Nat) (f : Partition → Partition) : (s.setPart id f).spent = s.spent := rfl
@[simp] theorem State.setPart_faulted (s : State) (id : Nat) (f : Partition → Partition) : (s.setPart id f).faulted = s.faulted := rfl
@[simp] theorem State.setPart_unitWaits (s : State) (id : Nat) (f : Partition → Partition) : (s.setPart id f).unitWaits = s.unitWaits := rfl
@[simp] theorem State.setPart_agenda (s : State) (id : Nat) (f : Partition → Partition) : (s.setPart id f).agenda = s.agenda := rfl
@[simp] theorem State.setPart_eventFirst (s : State) (id : Nat) (f : Partition → Partition) : (s.setPart id f).eventFirst = s.eventFirst := rfl
@[simp] theorem State.setPart_freeIx (s : State) (id : Nat) (f : Partition → Partition) : (s.setPart id f).freeIx = s.freeIx := rfl
@[simp] theorem State.setPart_nextId (s : State) (id : Nat) (f : Partition → Partition) : (s.setPart id f).nextId = s.nextId := rfl

@[simp] theorem State.setCore_clock (s : State) (id : CoreId) (f : Core → Core) : (s.setCore id f).clock = s.clock := rfl
@[simp] theorem State.setCore_mem (s : State) (id : CoreId) (f : Core → Core) : (s.setCore id f).mem = s.mem := rfl
@[simp] theorem State.setCore_marks (s : State) (id : CoreId) (f : Core → Core) : (s.setCore id f).marks = s.marks := rfl
@[simp] theorem State.setCore_l1 (s : State) (id : CoreId) (f : Core → Core) : (s.setCore id f).l1 = s.l1 := rfl
@[simp] theorem State.setCore_l2 (s : State) (id : CoreId) (f : Core → Core) : (s.setCore id f).l2 = s.l2 := rfl
@[simp] theorem State.setCore_tlb (s : State) (id : CoreId) (f : Core → Core) : (s.setCore id f).tlb = s.tlb := rfl
@[simp] theorem State.setCore_owners (s : State) (id : CoreId) (f : Core → Core) : (s.setCore id f).owners = s.owners := rfl
@[simp] theorem State.setCore_far (s : State) (id : CoreId) (f : Core → Core) : (s.setCore id f).far = s.far := rfl
@[simp] theorem State.setCore_w (s : State) (id : CoreId) (f : Core → Core) : (s.setCore id f).w = s.w := rfl
@[simp] theorem State.setCore_rest (s : State) (id : CoreId) (f : Core → Core) : (s.setCore id f).rest = s.rest := rfl
@[simp] theorem State.setCore_teams (s : State) (id : CoreId) (f : Core → Core) : (s.setCore id f).teams = s.teams := rfl
@[simp] theorem State.setCore_grids (s : State) (id : CoreId) (f : Core → Core) : (s.setCore id f).grids = s.grids := rfl
@[simp] theorem State.setCore_ctxs (s : State) (id : CoreId) (f : Core → Core) : (s.setCore id f).ctxs = s.ctxs := rfl
@[simp] theorem State.setCore_stores (s : State) (id : CoreId) (f : Core → Core) : (s.setCore id f).stores = s.stores := rfl
@[simp] theorem State.setCore_ops (s : State) (id : CoreId) (f : Core → Core) : (s.setCore id f).ops = s.ops := rfl
@[simp] theorem State.setCore_copies (s : State) (id : CoreId) (f : Core → Core) : (s.setCore id f).copies = s.copies := rfl
@[simp] theorem State.setCore_latches (s : State) (id : CoreId) (f : Core → Core) : (s.setCore id f).latches = s.latches := rfl
@[simp] theorem State.setCore_vfs (s : State) (id : CoreId) (f : Core → Core) : (s.setCore id f).vfs = s.vfs := rfl
@[simp] theorem State.setCore_pf (s : State) (id : CoreId) (f : Core → Core) : (s.setCore id f).pf = s.pf := rfl
@[simp] theorem State.setCore_parts (s : State) (id : CoreId) (f : Core → Core) : (s.setCore id f).parts = s.parts := rfl
@[simp] theorem State.setCore_links (s : State) (id : CoreId) (f : Core → Core) : (s.setCore id f).links = s.links := rfl
@[simp] theorem State.setCore_cutAt (s : State) (id : CoreId) (f : Core → Core) : (s.setCore id f).cutAt = s.cutAt := rfl
@[simp] theorem State.setCore_routes (s : State) (id : CoreId) (f : Core → Core) : (s.setCore id f).routes = s.routes := rfl
@[simp] theorem State.setCore_ingress (s : State) (id : CoreId) (f : Core → Core) : (s.setCore id f).ingress = s.ingress := rfl
@[simp] theorem State.setCore_sluice (s : State) (id : CoreId) (f : Core → Core) : (s.setCore id f).sluice = s.sluice := rfl
@[simp] theorem State.setCore_spdm (s : State) (id : CoreId) (f : Core → Core) : (s.setCore id f).spdm = s.spdm := rfl
@[simp] theorem State.setCore_outbox (s : State) (id : CoreId) (f : Core → Core) : (s.setCore id f).outbox = s.outbox := rfl
@[simp] theorem State.setCore_round (s : State) (id : CoreId) (f : Core → Core) : (s.setCore id f).round = s.round := rfl
@[simp] theorem State.setCore_issued (s : State) (id : CoreId) (f : Core → Core) : (s.setCore id f).issued = s.issued := rfl
@[simp] theorem State.setCore_spent (s : State) (id : CoreId) (f : Core → Core) : (s.setCore id f).spent = s.spent := rfl
@[simp] theorem State.setCore_faulted (s : State) (id : CoreId) (f : Core → Core) : (s.setCore id f).faulted = s.faulted := rfl
@[simp] theorem State.setCore_unitWaits (s : State) (id : CoreId) (f : Core → Core) : (s.setCore id f).unitWaits = s.unitWaits := rfl
@[simp] theorem State.setCore_agenda (s : State) (id : CoreId) (f : Core → Core) : (s.setCore id f).agenda = s.agenda := rfl
@[simp] theorem State.setCore_eventFirst (s : State) (id : CoreId) (f : Core → Core) : (s.setCore id f).eventFirst = s.eventFirst := rfl
@[simp] theorem State.setCore_freeIx (s : State) (id : CoreId) (f : Core → Core) : (s.setCore id f).freeIx = s.freeIx := rfl
@[simp] theorem State.setCore_nextId (s : State) (id : CoreId) (f : Core → Core) : (s.setCore id f).nextId = s.nextId := rfl

@[simp] theorem State.send_clock (s : State) (m : OutMsg) : (s.send m).clock = s.clock := rfl
@[simp] theorem State.send_mem (s : State) (m : OutMsg) : (s.send m).mem = s.mem := rfl
@[simp] theorem State.send_marks (s : State) (m : OutMsg) : (s.send m).marks = s.marks := rfl
@[simp] theorem State.send_l1 (s : State) (m : OutMsg) : (s.send m).l1 = s.l1 := rfl
@[simp] theorem State.send_l2 (s : State) (m : OutMsg) : (s.send m).l2 = s.l2 := rfl
@[simp] theorem State.send_tlb (s : State) (m : OutMsg) : (s.send m).tlb = s.tlb := rfl
@[simp] theorem State.send_owners (s : State) (m : OutMsg) : (s.send m).owners = s.owners := rfl
@[simp] theorem State.send_far (s : State) (m : OutMsg) : (s.send m).far = s.far := rfl
@[simp] theorem State.send_w (s : State) (m : OutMsg) : (s.send m).w = s.w := rfl
@[simp] theorem State.send_rest (s : State) (m : OutMsg) : (s.send m).rest = s.rest := rfl
@[simp] theorem State.send_teams (s : State) (m : OutMsg) : (s.send m).teams = s.teams := rfl
@[simp] theorem State.send_grids (s : State) (m : OutMsg) : (s.send m).grids = s.grids := rfl
@[simp] theorem State.send_ctxs (s : State) (m : OutMsg) : (s.send m).ctxs = s.ctxs := rfl
@[simp] theorem State.send_cores (s : State) (m : OutMsg) : (s.send m).cores = s.cores := rfl
@[simp] theorem State.send_stores (s : State) (m : OutMsg) : (s.send m).stores = s.stores := rfl
@[simp] theorem State.send_ops (s : State) (m : OutMsg) : (s.send m).ops = s.ops := rfl
@[simp] theorem State.send_copies (s : State) (m : OutMsg) : (s.send m).copies = s.copies := rfl
@[simp] theorem State.send_latches (s : State) (m : OutMsg) : (s.send m).latches = s.latches := rfl
@[simp] theorem State.send_vfs (s : State) (m : OutMsg) : (s.send m).vfs = s.vfs := rfl
@[simp] theorem State.send_pf (s : State) (m : OutMsg) : (s.send m).pf = s.pf := rfl
@[simp] theorem State.send_parts (s : State) (m : OutMsg) : (s.send m).parts = s.parts := rfl
@[simp] theorem State.send_links (s : State) (m : OutMsg) : (s.send m).links = s.links := rfl
@[simp] theorem State.send_cutAt (s : State) (m : OutMsg) : (s.send m).cutAt = s.cutAt := rfl
@[simp] theorem State.send_routes (s : State) (m : OutMsg) : (s.send m).routes = s.routes := rfl
@[simp] theorem State.send_ingress (s : State) (m : OutMsg) : (s.send m).ingress = s.ingress := rfl
@[simp] theorem State.send_sluice (s : State) (m : OutMsg) : (s.send m).sluice = s.sluice := rfl
@[simp] theorem State.send_spdm (s : State) (m : OutMsg) : (s.send m).spdm = s.spdm := rfl
@[simp] theorem State.send_round (s : State) (m : OutMsg) : (s.send m).round = s.round := rfl
@[simp] theorem State.send_issued (s : State) (m : OutMsg) : (s.send m).issued = s.issued := rfl
@[simp] theorem State.send_spent (s : State) (m : OutMsg) : (s.send m).spent = s.spent := rfl
@[simp] theorem State.send_faulted (s : State) (m : OutMsg) : (s.send m).faulted = s.faulted := rfl
@[simp] theorem State.send_unitWaits (s : State) (m : OutMsg) : (s.send m).unitWaits = s.unitWaits := rfl
@[simp] theorem State.send_agenda (s : State) (m : OutMsg) : (s.send m).agenda = s.agenda := rfl
@[simp] theorem State.send_eventFirst (s : State) (m : OutMsg) : (s.send m).eventFirst = s.eventFirst := rfl
@[simp] theorem State.send_freeIx (s : State) (m : OutMsg) : (s.send m).freeIx = s.freeIx := rfl
@[simp] theorem State.send_nextId (s : State) (m : OutMsg) : (s.send m).nextId = s.nextId := rfl

@[simp] theorem State.jump_clock (s : State) (pc : Addr) : (s.jump pc).clock = s.clock := rfl
@[simp] theorem State.jump_mem (s : State) (pc : Addr) : (s.jump pc).mem = s.mem := rfl
@[simp] theorem State.jump_marks (s : State) (pc : Addr) : (s.jump pc).marks = s.marks := rfl
@[simp] theorem State.jump_l1 (s : State) (pc : Addr) : (s.jump pc).l1 = s.l1 := rfl
@[simp] theorem State.jump_l2 (s : State) (pc : Addr) : (s.jump pc).l2 = s.l2 := rfl
@[simp] theorem State.jump_tlb (s : State) (pc : Addr) : (s.jump pc).tlb = s.tlb := rfl
@[simp] theorem State.jump_owners (s : State) (pc : Addr) : (s.jump pc).owners = s.owners := rfl
@[simp] theorem State.jump_far (s : State) (pc : Addr) : (s.jump pc).far = s.far := rfl
@[simp] theorem State.jump_rest (s : State) (pc : Addr) : (s.jump pc).rest = s.rest := rfl
@[simp] theorem State.jump_teams (s : State) (pc : Addr) : (s.jump pc).teams = s.teams := rfl
@[simp] theorem State.jump_grids (s : State) (pc : Addr) : (s.jump pc).grids = s.grids := rfl
@[simp] theorem State.jump_ctxs (s : State) (pc : Addr) : (s.jump pc).ctxs = s.ctxs := rfl
@[simp] theorem State.jump_cores (s : State) (pc : Addr) : (s.jump pc).cores = s.cores := rfl
@[simp] theorem State.jump_stores (s : State) (pc : Addr) : (s.jump pc).stores = s.stores := rfl
@[simp] theorem State.jump_ops (s : State) (pc : Addr) : (s.jump pc).ops = s.ops := rfl
@[simp] theorem State.jump_copies (s : State) (pc : Addr) : (s.jump pc).copies = s.copies := rfl
@[simp] theorem State.jump_latches (s : State) (pc : Addr) : (s.jump pc).latches = s.latches := rfl
@[simp] theorem State.jump_vfs (s : State) (pc : Addr) : (s.jump pc).vfs = s.vfs := rfl
@[simp] theorem State.jump_pf (s : State) (pc : Addr) : (s.jump pc).pf = s.pf := rfl
@[simp] theorem State.jump_parts (s : State) (pc : Addr) : (s.jump pc).parts = s.parts := rfl
@[simp] theorem State.jump_links (s : State) (pc : Addr) : (s.jump pc).links = s.links := rfl
@[simp] theorem State.jump_cutAt (s : State) (pc : Addr) : (s.jump pc).cutAt = s.cutAt := rfl
@[simp] theorem State.jump_routes (s : State) (pc : Addr) : (s.jump pc).routes = s.routes := rfl
@[simp] theorem State.jump_ingress (s : State) (pc : Addr) : (s.jump pc).ingress = s.ingress := rfl
@[simp] theorem State.jump_sluice (s : State) (pc : Addr) : (s.jump pc).sluice = s.sluice := rfl
@[simp] theorem State.jump_spdm (s : State) (pc : Addr) : (s.jump pc).spdm = s.spdm := rfl
@[simp] theorem State.jump_outbox (s : State) (pc : Addr) : (s.jump pc).outbox = s.outbox := rfl
@[simp] theorem State.jump_round (s : State) (pc : Addr) : (s.jump pc).round = s.round := rfl
@[simp] theorem State.jump_issued (s : State) (pc : Addr) : (s.jump pc).issued = s.issued := rfl
@[simp] theorem State.jump_spent (s : State) (pc : Addr) : (s.jump pc).spent = s.spent := rfl
@[simp] theorem State.jump_faulted (s : State) (pc : Addr) : (s.jump pc).faulted = s.faulted := rfl
@[simp] theorem State.jump_unitWaits (s : State) (pc : Addr) : (s.jump pc).unitWaits = s.unitWaits := rfl
@[simp] theorem State.jump_agenda (s : State) (pc : Addr) : (s.jump pc).agenda = s.agenda := rfl
@[simp] theorem State.jump_eventFirst (s : State) (pc : Addr) : (s.jump pc).eventFirst = s.eventFirst := rfl
@[simp] theorem State.jump_freeIx (s : State) (pc : Addr) : (s.jump pc).freeIx = s.freeIx := rfl
@[simp] theorem State.jump_nextId (s : State) (pc : Addr) : (s.jump pc).nextId = s.nextId := rfl

@[simp] theorem State.advance_clock (s : State) : (s.advance).clock = s.clock := rfl
@[simp] theorem State.advance_mem (s : State) : (s.advance).mem = s.mem := rfl
@[simp] theorem State.advance_marks (s : State) : (s.advance).marks = s.marks := rfl
@[simp] theorem State.advance_l1 (s : State) : (s.advance).l1 = s.l1 := rfl
@[simp] theorem State.advance_l2 (s : State) : (s.advance).l2 = s.l2 := rfl
@[simp] theorem State.advance_tlb (s : State) : (s.advance).tlb = s.tlb := rfl
@[simp] theorem State.advance_owners (s : State) : (s.advance).owners = s.owners := rfl
@[simp] theorem State.advance_far (s : State) : (s.advance).far = s.far := rfl
@[simp] theorem State.advance_rest (s : State) : (s.advance).rest = s.rest := rfl
@[simp] theorem State.advance_teams (s : State) : (s.advance).teams = s.teams := rfl
@[simp] theorem State.advance_grids (s : State) : (s.advance).grids = s.grids := rfl
@[simp] theorem State.advance_ctxs (s : State) : (s.advance).ctxs = s.ctxs := rfl
@[simp] theorem State.advance_cores (s : State) : (s.advance).cores = s.cores := rfl
@[simp] theorem State.advance_stores (s : State) : (s.advance).stores = s.stores := rfl
@[simp] theorem State.advance_ops (s : State) : (s.advance).ops = s.ops := rfl
@[simp] theorem State.advance_copies (s : State) : (s.advance).copies = s.copies := rfl
@[simp] theorem State.advance_latches (s : State) : (s.advance).latches = s.latches := rfl
@[simp] theorem State.advance_vfs (s : State) : (s.advance).vfs = s.vfs := rfl
@[simp] theorem State.advance_pf (s : State) : (s.advance).pf = s.pf := rfl
@[simp] theorem State.advance_parts (s : State) : (s.advance).parts = s.parts := rfl
@[simp] theorem State.advance_links (s : State) : (s.advance).links = s.links := rfl
@[simp] theorem State.advance_cutAt (s : State) : (s.advance).cutAt = s.cutAt := rfl
@[simp] theorem State.advance_routes (s : State) : (s.advance).routes = s.routes := rfl
@[simp] theorem State.advance_ingress (s : State) : (s.advance).ingress = s.ingress := rfl
@[simp] theorem State.advance_sluice (s : State) : (s.advance).sluice = s.sluice := rfl
@[simp] theorem State.advance_spdm (s : State) : (s.advance).spdm = s.spdm := rfl
@[simp] theorem State.advance_outbox (s : State) : (s.advance).outbox = s.outbox := rfl
@[simp] theorem State.advance_round (s : State) : (s.advance).round = s.round := rfl
@[simp] theorem State.advance_issued (s : State) : (s.advance).issued = s.issued := rfl
@[simp] theorem State.advance_spent (s : State) : (s.advance).spent = s.spent := rfl
@[simp] theorem State.advance_faulted (s : State) : (s.advance).faulted = s.faulted := rfl
@[simp] theorem State.advance_unitWaits (s : State) : (s.advance).unitWaits = s.unitWaits := rfl
@[simp] theorem State.advance_agenda (s : State) : (s.advance).agenda = s.agenda := rfl
@[simp] theorem State.advance_eventFirst (s : State) : (s.advance).eventFirst = s.eventFirst := rfl
@[simp] theorem State.advance_freeIx (s : State) : (s.advance).freeIx = s.freeIx := rfl
@[simp] theorem State.advance_nextId (s : State) : (s.advance).nextId = s.nextId := rfl

@[simp] theorem State.finish_clock (s : State) (f : Warp → Warp) : (s.finish f).clock = s.clock := rfl
@[simp] theorem State.finish_mem (s : State) (f : Warp → Warp) : (s.finish f).mem = s.mem := rfl
@[simp] theorem State.finish_marks (s : State) (f : Warp → Warp) : (s.finish f).marks = s.marks := rfl
@[simp] theorem State.finish_l1 (s : State) (f : Warp → Warp) : (s.finish f).l1 = s.l1 := rfl
@[simp] theorem State.finish_l2 (s : State) (f : Warp → Warp) : (s.finish f).l2 = s.l2 := rfl
@[simp] theorem State.finish_tlb (s : State) (f : Warp → Warp) : (s.finish f).tlb = s.tlb := rfl
@[simp] theorem State.finish_owners (s : State) (f : Warp → Warp) : (s.finish f).owners = s.owners := rfl
@[simp] theorem State.finish_far (s : State) (f : Warp → Warp) : (s.finish f).far = s.far := rfl
@[simp] theorem State.finish_rest (s : State) (f : Warp → Warp) : (s.finish f).rest = s.rest := rfl
@[simp] theorem State.finish_teams (s : State) (f : Warp → Warp) : (s.finish f).teams = s.teams := rfl
@[simp] theorem State.finish_grids (s : State) (f : Warp → Warp) : (s.finish f).grids = s.grids := rfl
@[simp] theorem State.finish_ctxs (s : State) (f : Warp → Warp) : (s.finish f).ctxs = s.ctxs := rfl
@[simp] theorem State.finish_cores (s : State) (f : Warp → Warp) : (s.finish f).cores = s.cores := rfl
@[simp] theorem State.finish_stores (s : State) (f : Warp → Warp) : (s.finish f).stores = s.stores := rfl
@[simp] theorem State.finish_ops (s : State) (f : Warp → Warp) : (s.finish f).ops = s.ops := rfl
@[simp] theorem State.finish_copies (s : State) (f : Warp → Warp) : (s.finish f).copies = s.copies := rfl
@[simp] theorem State.finish_latches (s : State) (f : Warp → Warp) : (s.finish f).latches = s.latches := rfl
@[simp] theorem State.finish_vfs (s : State) (f : Warp → Warp) : (s.finish f).vfs = s.vfs := rfl
@[simp] theorem State.finish_pf (s : State) (f : Warp → Warp) : (s.finish f).pf = s.pf := rfl
@[simp] theorem State.finish_parts (s : State) (f : Warp → Warp) : (s.finish f).parts = s.parts := rfl
@[simp] theorem State.finish_links (s : State) (f : Warp → Warp) : (s.finish f).links = s.links := rfl
@[simp] theorem State.finish_cutAt (s : State) (f : Warp → Warp) : (s.finish f).cutAt = s.cutAt := rfl
@[simp] theorem State.finish_routes (s : State) (f : Warp → Warp) : (s.finish f).routes = s.routes := rfl
@[simp] theorem State.finish_ingress (s : State) (f : Warp → Warp) : (s.finish f).ingress = s.ingress := rfl
@[simp] theorem State.finish_sluice (s : State) (f : Warp → Warp) : (s.finish f).sluice = s.sluice := rfl
@[simp] theorem State.finish_spdm (s : State) (f : Warp → Warp) : (s.finish f).spdm = s.spdm := rfl
@[simp] theorem State.finish_outbox (s : State) (f : Warp → Warp) : (s.finish f).outbox = s.outbox := rfl
@[simp] theorem State.finish_round (s : State) (f : Warp → Warp) : (s.finish f).round = s.round := rfl
@[simp] theorem State.finish_issued (s : State) (f : Warp → Warp) : (s.finish f).issued = s.issued := rfl
@[simp] theorem State.finish_spent (s : State) (f : Warp → Warp) : (s.finish f).spent = s.spent := rfl
@[simp] theorem State.finish_faulted (s : State) (f : Warp → Warp) : (s.finish f).faulted = s.faulted := rfl
@[simp] theorem State.finish_unitWaits (s : State) (f : Warp → Warp) : (s.finish f).unitWaits = s.unitWaits := rfl
@[simp] theorem State.finish_agenda (s : State) (f : Warp → Warp) : (s.finish f).agenda = s.agenda := rfl
@[simp] theorem State.finish_eventFirst (s : State) (f : Warp → Warp) : (s.finish f).eventFirst = s.eventFirst := rfl
@[simp] theorem State.finish_freeIx (s : State) (f : Warp → Warp) : (s.finish f).freeIx = s.freeIx := rfl
@[simp] theorem State.finish_nextId (s : State) (f : Warp → Warp) : (s.finish f).nextId = s.nextId := rfl

@[simp] theorem State.holdFor_clock (s : State) (h : Hold) : (s.holdFor h).clock = s.clock := rfl
@[simp] theorem State.holdFor_mem (s : State) (h : Hold) : (s.holdFor h).mem = s.mem := rfl
@[simp] theorem State.holdFor_marks (s : State) (h : Hold) : (s.holdFor h).marks = s.marks := rfl
@[simp] theorem State.holdFor_l1 (s : State) (h : Hold) : (s.holdFor h).l1 = s.l1 := rfl
@[simp] theorem State.holdFor_l2 (s : State) (h : Hold) : (s.holdFor h).l2 = s.l2 := rfl
@[simp] theorem State.holdFor_tlb (s : State) (h : Hold) : (s.holdFor h).tlb = s.tlb := rfl
@[simp] theorem State.holdFor_owners (s : State) (h : Hold) : (s.holdFor h).owners = s.owners := rfl
@[simp] theorem State.holdFor_far (s : State) (h : Hold) : (s.holdFor h).far = s.far := rfl
@[simp] theorem State.holdFor_rest (s : State) (h : Hold) : (s.holdFor h).rest = s.rest := rfl
@[simp] theorem State.holdFor_teams (s : State) (h : Hold) : (s.holdFor h).teams = s.teams := rfl
@[simp] theorem State.holdFor_grids (s : State) (h : Hold) : (s.holdFor h).grids = s.grids := rfl
@[simp] theorem State.holdFor_ctxs (s : State) (h : Hold) : (s.holdFor h).ctxs = s.ctxs := rfl
@[simp] theorem State.holdFor_cores (s : State) (h : Hold) : (s.holdFor h).cores = s.cores := rfl
@[simp] theorem State.holdFor_stores (s : State) (h : Hold) : (s.holdFor h).stores = s.stores := rfl
@[simp] theorem State.holdFor_ops (s : State) (h : Hold) : (s.holdFor h).ops = s.ops := rfl
@[simp] theorem State.holdFor_copies (s : State) (h : Hold) : (s.holdFor h).copies = s.copies := rfl
@[simp] theorem State.holdFor_latches (s : State) (h : Hold) : (s.holdFor h).latches = s.latches := rfl
@[simp] theorem State.holdFor_vfs (s : State) (h : Hold) : (s.holdFor h).vfs = s.vfs := rfl
@[simp] theorem State.holdFor_pf (s : State) (h : Hold) : (s.holdFor h).pf = s.pf := rfl
@[simp] theorem State.holdFor_parts (s : State) (h : Hold) : (s.holdFor h).parts = s.parts := rfl
@[simp] theorem State.holdFor_links (s : State) (h : Hold) : (s.holdFor h).links = s.links := rfl
@[simp] theorem State.holdFor_cutAt (s : State) (h : Hold) : (s.holdFor h).cutAt = s.cutAt := rfl
@[simp] theorem State.holdFor_routes (s : State) (h : Hold) : (s.holdFor h).routes = s.routes := rfl
@[simp] theorem State.holdFor_ingress (s : State) (h : Hold) : (s.holdFor h).ingress = s.ingress := rfl
@[simp] theorem State.holdFor_sluice (s : State) (h : Hold) : (s.holdFor h).sluice = s.sluice := rfl
@[simp] theorem State.holdFor_spdm (s : State) (h : Hold) : (s.holdFor h).spdm = s.spdm := rfl
@[simp] theorem State.holdFor_outbox (s : State) (h : Hold) : (s.holdFor h).outbox = s.outbox := rfl
@[simp] theorem State.holdFor_round (s : State) (h : Hold) : (s.holdFor h).round = s.round := rfl
@[simp] theorem State.holdFor_issued (s : State) (h : Hold) : (s.holdFor h).issued = s.issued := rfl
@[simp] theorem State.holdFor_spent (s : State) (h : Hold) : (s.holdFor h).spent = s.spent := rfl
@[simp] theorem State.holdFor_faulted (s : State) (h : Hold) : (s.holdFor h).faulted = s.faulted := rfl
@[simp] theorem State.holdFor_unitWaits (s : State) (h : Hold) : (s.holdFor h).unitWaits = s.unitWaits := rfl
@[simp] theorem State.holdFor_agenda (s : State) (h : Hold) : (s.holdFor h).agenda = s.agenda := rfl
@[simp] theorem State.holdFor_eventFirst (s : State) (h : Hold) : (s.holdFor h).eventFirst = s.eventFirst := rfl
@[simp] theorem State.holdFor_freeIx (s : State) (h : Hold) : (s.holdFor h).freeIx = s.freeIx := rfl
@[simp] theorem State.holdFor_nextId (s : State) (h : Hold) : (s.holdFor h).nextId = s.nextId := rfl

@[simp] theorem State.setW_w (s : State) (f : Warp → Warp) : (s.setW f).w = f s.w := rfl
@[simp] theorem State.advance_w (s : State) : s.advance.w = s.w.advance := rfl
@[simp] theorem State.finish_w (s : State) (f : Warp → Warp) : (s.finish f).w = (f s.w).advance := rfl

/-! ### Updates of a warp -/

@[simp] theorem Warp.writeBlock_id (w : Warp) (ix : Fin 256) (m : Mask) (v : Lanes) : (w.writeBlock ix m v).id = w.id := rfl
@[simp] theorem Warp.writeBlock_present (w : Warp) (ix : Fin 256) (m : Mask) (v : Lanes) : (w.writeBlock ix m v).present = w.present := rfl
@[simp] theorem Warp.writeBlock_core (w : Warp) (ix : Fin 256) (m : Mask) (v : Lanes) : (w.writeBlock ix m v).core = w.core := rfl
@[simp] theorem Warp.writeBlock_shuttle (w : Warp) (ix : Fin 256) (m : Mask) (v : Lanes) : (w.writeBlock ix m v).shuttle = w.shuttle := rfl
@[simp] theorem Warp.writeBlock_active (w : Warp) (ix : Fin 256) (m : Mask) (v : Lanes) : (w.writeBlock ix m v).active = w.active := rfl
@[simp] theorem Warp.writeBlock_pendingSince (w : Warp) (ix : Fin 256) (m : Mask) (v : Lanes) : (w.writeBlock ix m v).pendingSince = w.pendingSince := rfl
@[simp] theorem Warp.writeBlock_count (w : Warp) (ix : Fin 256) (m : Mask) (v : Lanes) : (w.writeBlock ix m v).count = w.count := rfl
@[simp] theorem Warp.writeBlock_scalars (w : Warp) (ix : Fin 256) (m : Mask) (v : Lanes) : (w.writeBlock ix m v).scalars = w.scalars := rfl
@[simp] theorem Warp.writeBlock_valloc (w : Warp) (ix : Fin 256) (m : Mask) (v : Lanes) : (w.writeBlock ix m v).valloc = w.valloc := rfl
@[simp] theorem Warp.writeBlock_blockBase (w : Warp) (ix : Fin 256) (m : Mask) (v : Lanes) : (w.writeBlock ix m v).blockBase = w.blockBase := rfl
@[simp] theorem Warp.writeBlock_preds (w : Warp) (ix : Fin 256) (m : Mask) (v : Lanes) : (w.writeBlock ix m v).preds = w.preds := rfl
@[simp] theorem Warp.writeBlock_wbase (w : Warp) (ix : Fin 256) (m : Mask) (v : Lanes) : (w.writeBlock ix m v).wbase = w.wbase := rfl
@[simp] theorem Warp.writeBlock_gang (w : Warp) (ix : Fin 256) (m : Mask) (v : Lanes) : (w.writeBlock ix m v).gang = w.gang := rfl
@[simp] theorem Warp.writeBlock_nflags (w : Warp) (ix : Fin 256) (m : Mask) (v : Lanes) : (w.writeBlock ix m v).nflags = w.nflags := rfl
@[simp] theorem Warp.writeBlock_level (w : Warp) (ix : Fin 256) (m : Mask) (v : Lanes) : (w.writeBlock ix m v).level = w.level := rfl
@[simp] theorem Warp.writeBlock_display (w : Warp) (ix : Fin 256) (m : Mask) (v : Lanes) : (w.writeBlock ix m v).display = w.display := rfl
@[simp] theorem Warp.writeBlock_cur (w : Warp) (ix : Fin 256) (m : Mask) (v : Lanes) : (w.writeBlock ix m v).cur = w.cur := rfl
@[simp] theorem Warp.writeBlock_lastSlot (w : Warp) (ix : Fin 256) (m : Mask) (v : Lanes) : (w.writeBlock ix m v).lastSlot = w.lastSlot := rfl
@[simp] theorem Warp.writeBlock_slots (w : Warp) (ix : Fin 256) (m : Mask) (v : Lanes) : (w.writeBlock ix m v).slots = w.slots := rfl
@[simp] theorem Warp.writeBlock_split (w : Warp) (ix : Fin 256) (m : Mask) (v : Lanes) : (w.writeBlock ix m v).split = w.split := rfl
@[simp] theorem Warp.writeBlock_spill (w : Warp) (ix : Fin 256) (m : Mask) (v : Lanes) : (w.writeBlock ix m v).spill = w.spill := rfl
@[simp] theorem Warp.writeBlock_rotation (w : Warp) (ix : Fin 256) (m : Mask) (v : Lanes) : (w.writeBlock ix m v).rotation = w.rotation := rfl
@[simp] theorem Warp.writeBlock_exited (w : Warp) (ix : Fin 256) (m : Mask) (v : Lanes) : (w.writeBlock ix m v).exited = w.exited := rfl
@[simp] theorem Warp.writeBlock_depth (w : Warp) (ix : Fin 256) (m : Mask) (v : Lanes) : (w.writeBlock ix m v).depth = w.depth := rfl
@[simp] theorem Warp.writeBlock_loops (w : Warp) (ix : Fin 256) (m : Mask) (v : Lanes) : (w.writeBlock ix m v).loops = w.loops := rfl
@[simp] theorem Warp.writeBlock_loopOrder (w : Warp) (ix : Fin 256) (m : Mask) (v : Lanes) : (w.writeBlock ix m v).loopOrder = w.loopOrder := rfl
@[simp] theorem Warp.writeBlock_clockHi (w : Warp) (ix : Fin 256) (m : Mask) (v : Lanes) : (w.writeBlock ix m v).clockHi = w.clockHi := rfl
@[simp] theorem Warp.writeBlock_loads (w : Warp) (ix : Fin 256) (m : Mask) (v : Lanes) : (w.writeBlock ix m v).loads = w.loads := rfl
@[simp] theorem Warp.writeBlock_openOps (w : Warp) (ix : Fin 256) (m : Mask) (v : Lanes) : (w.writeBlock ix m v).openOps = w.openOps := rfl
@[simp] theorem Warp.writeBlock_tileBatches (w : Warp) (ix : Fin 256) (m : Mask) (v : Lanes) : (w.writeBlock ix m v).tileBatches = w.tileBatches := rfl
@[simp] theorem Warp.writeBlock_openCopies (w : Warp) (ix : Fin 256) (m : Mask) (v : Lanes) : (w.writeBlock ix m v).openCopies = w.openCopies := rfl
@[simp] theorem Warp.writeBlock_copyBatches (w : Warp) (ix : Fin 256) (m : Mask) (v : Lanes) : (w.writeBlock ix m v).copyBatches = w.copyBatches := rfl
@[simp] theorem Warp.writeBlock_leases (w : Warp) (ix : Fin 256) (m : Mask) (v : Lanes) : (w.writeBlock ix m v).leases = w.leases := rfl
@[simp] theorem Warp.writeBlock_tokens (w : Warp) (ix : Fin 256) (m : Mask) (v : Lanes) : (w.writeBlock ix m v).tokens = w.tokens := rfl
@[simp] theorem Warp.writeBlock_super (w : Warp) (ix : Fin 256) (m : Mask) (v : Lanes) : (w.writeBlock ix m v).super = w.super := rfl
@[simp] theorem Warp.writeBlock_handler (w : Warp) (ix : Fin 256) (m : Mask) (v : Lanes) : (w.writeBlock ix m v).handler = w.handler := rfl
@[simp] theorem Warp.writeBlock_faultInfo (w : Warp) (ix : Fin 256) (m : Mask) (v : Lanes) : (w.writeBlock ix m v).faultInfo = w.faultInfo := rfl
@[simp] theorem Warp.writeBlock_faultVa (w : Warp) (ix : Fin 256) (m : Mask) (v : Lanes) : (w.writeBlock ix m v).faultVa = w.faultVa := rfl
@[simp] theorem Warp.writeBlock_faultMask (w : Warp) (ix : Fin 256) (m : Mask) (v : Lanes) : (w.writeBlock ix m v).faultMask = w.faultMask := rfl
@[simp] theorem Warp.writeBlock_opFaults (w : Warp) (ix : Fin 256) (m : Mask) (v : Lanes) : (w.writeBlock ix m v).opFaults = w.opFaults := rfl
@[simp] theorem Warp.writeBlock_hold (w : Warp) (ix : Fin 256) (m : Mask) (v : Lanes) : (w.writeBlock ix m v).hold = w.hold := rfl
@[simp] theorem Warp.writeBlock_yielded (w : Warp) (ix : Fin 256) (m : Mask) (v : Lanes) : (w.writeBlock ix m v).yielded = w.yielded := rfl
@[simp] theorem Warp.writeBlock_replay (w : Warp) (ix : Fin 256) (m : Mask) (v : Lanes) : (w.writeBlock ix m v).replay = w.replay := rfl
@[simp] theorem Warp.writeBlock_linkWait (w : Warp) (ix : Fin 256) (m : Mask) (v : Lanes) : (w.writeBlock ix m v).linkWait = w.linkWait := rfl
@[simp] theorem Warp.writeBlock_joining (w : Warp) (ix : Fin 256) (m : Mask) (v : Lanes) : (w.writeBlock ix m v).joining = w.joining := rfl
@[simp] theorem Warp.writeBlock_sleepUntil (w : Warp) (ix : Fin 256) (m : Mask) (v : Lanes) : (w.writeBlock ix m v).sleepUntil = w.sleepUntil := rfl
@[simp] theorem Warp.writeBlock_atSwitch (w : Warp) (ix : Fin 256) (m : Mask) (v : Lanes) : (w.writeBlock ix m v).atSwitch = w.atSwitch := rfl
@[simp] theorem Warp.writeBlock_awaitCheckpoint (w : Warp) (ix : Fin 256) (m : Mask) (v : Lanes) : (w.writeBlock ix m v).awaitCheckpoint = w.awaitCheckpoint := rfl
@[simp] theorem Warp.writeBlock_stopped (w : Warp) (ix : Fin 256) (m : Mask) (v : Lanes) : (w.writeBlock ix m v).stopped = w.stopped := rfl
@[simp] theorem Warp.writeBlock_recordStands (w : Warp) (ix : Fin 256) (m : Mask) (v : Lanes) : (w.writeBlock ix m v).recordStands = w.recordStands := rfl
@[simp] theorem Warp.writeBlock_legacy (w : Warp) (ix : Fin 256) (m : Mask) (v : Lanes) : (w.writeBlock ix m v).legacy = w.legacy := rfl
@[simp] theorem Warp.writeBlock_hinted (w : Warp) (ix : Fin 256) (m : Mask) (v : Lanes) : (w.writeBlock ix m v).hinted = w.hinted := rfl
@[simp] theorem Warp.writeBlock_privBase (w : Warp) (ix : Fin 256) (m : Mask) (v : Lanes) : (w.writeBlock ix m v).privBase = w.privBase := rfl
@[simp] theorem Warp.writeBlock_privsz (w : Warp) (ix : Fin 256) (m : Mask) (v : Lanes) : (w.writeBlock ix m v).privsz = w.privsz := rfl

@[simp] theorem Warp.writeV_id (w : Warp) (n : Nat) (m : Mask) (v : Lanes) : (w.writeV n m v).id = w.id := rfl
@[simp] theorem Warp.writeV_present (w : Warp) (n : Nat) (m : Mask) (v : Lanes) : (w.writeV n m v).present = w.present := rfl
@[simp] theorem Warp.writeV_core (w : Warp) (n : Nat) (m : Mask) (v : Lanes) : (w.writeV n m v).core = w.core := rfl
@[simp] theorem Warp.writeV_shuttle (w : Warp) (n : Nat) (m : Mask) (v : Lanes) : (w.writeV n m v).shuttle = w.shuttle := rfl
@[simp] theorem Warp.writeV_active (w : Warp) (n : Nat) (m : Mask) (v : Lanes) : (w.writeV n m v).active = w.active := rfl
@[simp] theorem Warp.writeV_pendingSince (w : Warp) (n : Nat) (m : Mask) (v : Lanes) : (w.writeV n m v).pendingSince = w.pendingSince := rfl
@[simp] theorem Warp.writeV_count (w : Warp) (n : Nat) (m : Mask) (v : Lanes) : (w.writeV n m v).count = w.count := rfl
@[simp] theorem Warp.writeV_scalars (w : Warp) (n : Nat) (m : Mask) (v : Lanes) : (w.writeV n m v).scalars = w.scalars := rfl
@[simp] theorem Warp.writeV_valloc (w : Warp) (n : Nat) (m : Mask) (v : Lanes) : (w.writeV n m v).valloc = w.valloc := rfl
@[simp] theorem Warp.writeV_blockBase (w : Warp) (n : Nat) (m : Mask) (v : Lanes) : (w.writeV n m v).blockBase = w.blockBase := rfl
@[simp] theorem Warp.writeV_preds (w : Warp) (n : Nat) (m : Mask) (v : Lanes) : (w.writeV n m v).preds = w.preds := rfl
@[simp] theorem Warp.writeV_wbase (w : Warp) (n : Nat) (m : Mask) (v : Lanes) : (w.writeV n m v).wbase = w.wbase := rfl
@[simp] theorem Warp.writeV_gang (w : Warp) (n : Nat) (m : Mask) (v : Lanes) : (w.writeV n m v).gang = w.gang := rfl
@[simp] theorem Warp.writeV_nflags (w : Warp) (n : Nat) (m : Mask) (v : Lanes) : (w.writeV n m v).nflags = w.nflags := rfl
@[simp] theorem Warp.writeV_level (w : Warp) (n : Nat) (m : Mask) (v : Lanes) : (w.writeV n m v).level = w.level := rfl
@[simp] theorem Warp.writeV_display (w : Warp) (n : Nat) (m : Mask) (v : Lanes) : (w.writeV n m v).display = w.display := rfl
@[simp] theorem Warp.writeV_cur (w : Warp) (n : Nat) (m : Mask) (v : Lanes) : (w.writeV n m v).cur = w.cur := rfl
@[simp] theorem Warp.writeV_lastSlot (w : Warp) (n : Nat) (m : Mask) (v : Lanes) : (w.writeV n m v).lastSlot = w.lastSlot := rfl
@[simp] theorem Warp.writeV_slots (w : Warp) (n : Nat) (m : Mask) (v : Lanes) : (w.writeV n m v).slots = w.slots := rfl
@[simp] theorem Warp.writeV_split (w : Warp) (n : Nat) (m : Mask) (v : Lanes) : (w.writeV n m v).split = w.split := rfl
@[simp] theorem Warp.writeV_spill (w : Warp) (n : Nat) (m : Mask) (v : Lanes) : (w.writeV n m v).spill = w.spill := rfl
@[simp] theorem Warp.writeV_rotation (w : Warp) (n : Nat) (m : Mask) (v : Lanes) : (w.writeV n m v).rotation = w.rotation := rfl
@[simp] theorem Warp.writeV_exited (w : Warp) (n : Nat) (m : Mask) (v : Lanes) : (w.writeV n m v).exited = w.exited := rfl
@[simp] theorem Warp.writeV_depth (w : Warp) (n : Nat) (m : Mask) (v : Lanes) : (w.writeV n m v).depth = w.depth := rfl
@[simp] theorem Warp.writeV_loops (w : Warp) (n : Nat) (m : Mask) (v : Lanes) : (w.writeV n m v).loops = w.loops := rfl
@[simp] theorem Warp.writeV_loopOrder (w : Warp) (n : Nat) (m : Mask) (v : Lanes) : (w.writeV n m v).loopOrder = w.loopOrder := rfl
@[simp] theorem Warp.writeV_clockHi (w : Warp) (n : Nat) (m : Mask) (v : Lanes) : (w.writeV n m v).clockHi = w.clockHi := rfl
@[simp] theorem Warp.writeV_loads (w : Warp) (n : Nat) (m : Mask) (v : Lanes) : (w.writeV n m v).loads = w.loads := rfl
@[simp] theorem Warp.writeV_openOps (w : Warp) (n : Nat) (m : Mask) (v : Lanes) : (w.writeV n m v).openOps = w.openOps := rfl
@[simp] theorem Warp.writeV_tileBatches (w : Warp) (n : Nat) (m : Mask) (v : Lanes) : (w.writeV n m v).tileBatches = w.tileBatches := rfl
@[simp] theorem Warp.writeV_openCopies (w : Warp) (n : Nat) (m : Mask) (v : Lanes) : (w.writeV n m v).openCopies = w.openCopies := rfl
@[simp] theorem Warp.writeV_copyBatches (w : Warp) (n : Nat) (m : Mask) (v : Lanes) : (w.writeV n m v).copyBatches = w.copyBatches := rfl
@[simp] theorem Warp.writeV_leases (w : Warp) (n : Nat) (m : Mask) (v : Lanes) : (w.writeV n m v).leases = w.leases := rfl
@[simp] theorem Warp.writeV_tokens (w : Warp) (n : Nat) (m : Mask) (v : Lanes) : (w.writeV n m v).tokens = w.tokens := rfl
@[simp] theorem Warp.writeV_super (w : Warp) (n : Nat) (m : Mask) (v : Lanes) : (w.writeV n m v).super = w.super := rfl
@[simp] theorem Warp.writeV_handler (w : Warp) (n : Nat) (m : Mask) (v : Lanes) : (w.writeV n m v).handler = w.handler := rfl
@[simp] theorem Warp.writeV_faultInfo (w : Warp) (n : Nat) (m : Mask) (v : Lanes) : (w.writeV n m v).faultInfo = w.faultInfo := rfl
@[simp] theorem Warp.writeV_faultVa (w : Warp) (n : Nat) (m : Mask) (v : Lanes) : (w.writeV n m v).faultVa = w.faultVa := rfl
@[simp] theorem Warp.writeV_faultMask (w : Warp) (n : Nat) (m : Mask) (v : Lanes) : (w.writeV n m v).faultMask = w.faultMask := rfl
@[simp] theorem Warp.writeV_opFaults (w : Warp) (n : Nat) (m : Mask) (v : Lanes) : (w.writeV n m v).opFaults = w.opFaults := rfl
@[simp] theorem Warp.writeV_hold (w : Warp) (n : Nat) (m : Mask) (v : Lanes) : (w.writeV n m v).hold = w.hold := rfl
@[simp] theorem Warp.writeV_yielded (w : Warp) (n : Nat) (m : Mask) (v : Lanes) : (w.writeV n m v).yielded = w.yielded := rfl
@[simp] theorem Warp.writeV_replay (w : Warp) (n : Nat) (m : Mask) (v : Lanes) : (w.writeV n m v).replay = w.replay := rfl
@[simp] theorem Warp.writeV_linkWait (w : Warp) (n : Nat) (m : Mask) (v : Lanes) : (w.writeV n m v).linkWait = w.linkWait := rfl
@[simp] theorem Warp.writeV_joining (w : Warp) (n : Nat) (m : Mask) (v : Lanes) : (w.writeV n m v).joining = w.joining := rfl
@[simp] theorem Warp.writeV_sleepUntil (w : Warp) (n : Nat) (m : Mask) (v : Lanes) : (w.writeV n m v).sleepUntil = w.sleepUntil := rfl
@[simp] theorem Warp.writeV_atSwitch (w : Warp) (n : Nat) (m : Mask) (v : Lanes) : (w.writeV n m v).atSwitch = w.atSwitch := rfl
@[simp] theorem Warp.writeV_awaitCheckpoint (w : Warp) (n : Nat) (m : Mask) (v : Lanes) : (w.writeV n m v).awaitCheckpoint = w.awaitCheckpoint := rfl
@[simp] theorem Warp.writeV_stopped (w : Warp) (n : Nat) (m : Mask) (v : Lanes) : (w.writeV n m v).stopped = w.stopped := rfl
@[simp] theorem Warp.writeV_recordStands (w : Warp) (n : Nat) (m : Mask) (v : Lanes) : (w.writeV n m v).recordStands = w.recordStands := rfl
@[simp] theorem Warp.writeV_legacy (w : Warp) (n : Nat) (m : Mask) (v : Lanes) : (w.writeV n m v).legacy = w.legacy := rfl
@[simp] theorem Warp.writeV_hinted (w : Warp) (n : Nat) (m : Mask) (v : Lanes) : (w.writeV n m v).hinted = w.hinted := rfl
@[simp] theorem Warp.writeV_privBase (w : Warp) (n : Nat) (m : Mask) (v : Lanes) : (w.writeV n m v).privBase = w.privBase := rfl
@[simp] theorem Warp.writeV_privsz (w : Warp) (n : Nat) (m : Mask) (v : Lanes) : (w.writeV n m v).privsz = w.privsz := rfl

@[simp] theorem Warp.writeP_id (w : Warp) (p : Pred) (m v : Mask) : (w.writeP p m v).id = w.id := rfl
@[simp] theorem Warp.writeP_present (w : Warp) (p : Pred) (m v : Mask) : (w.writeP p m v).present = w.present := rfl
@[simp] theorem Warp.writeP_core (w : Warp) (p : Pred) (m v : Mask) : (w.writeP p m v).core = w.core := rfl
@[simp] theorem Warp.writeP_shuttle (w : Warp) (p : Pred) (m v : Mask) : (w.writeP p m v).shuttle = w.shuttle := rfl
@[simp] theorem Warp.writeP_active (w : Warp) (p : Pred) (m v : Mask) : (w.writeP p m v).active = w.active := rfl
@[simp] theorem Warp.writeP_pendingSince (w : Warp) (p : Pred) (m v : Mask) : (w.writeP p m v).pendingSince = w.pendingSince := rfl
@[simp] theorem Warp.writeP_count (w : Warp) (p : Pred) (m v : Mask) : (w.writeP p m v).count = w.count := rfl
@[simp] theorem Warp.writeP_scalars (w : Warp) (p : Pred) (m v : Mask) : (w.writeP p m v).scalars = w.scalars := rfl
@[simp] theorem Warp.writeP_vectors (w : Warp) (p : Pred) (m v : Mask) : (w.writeP p m v).vectors = w.vectors := rfl
@[simp] theorem Warp.writeP_valloc (w : Warp) (p : Pred) (m v : Mask) : (w.writeP p m v).valloc = w.valloc := rfl
@[simp] theorem Warp.writeP_blockBase (w : Warp) (p : Pred) (m v : Mask) : (w.writeP p m v).blockBase = w.blockBase := rfl
@[simp] theorem Warp.writeP_wbase (w : Warp) (p : Pred) (m v : Mask) : (w.writeP p m v).wbase = w.wbase := rfl
@[simp] theorem Warp.writeP_gang (w : Warp) (p : Pred) (m v : Mask) : (w.writeP p m v).gang = w.gang := rfl
@[simp] theorem Warp.writeP_nflags (w : Warp) (p : Pred) (m v : Mask) : (w.writeP p m v).nflags = w.nflags := rfl
@[simp] theorem Warp.writeP_level (w : Warp) (p : Pred) (m v : Mask) : (w.writeP p m v).level = w.level := rfl
@[simp] theorem Warp.writeP_display (w : Warp) (p : Pred) (m v : Mask) : (w.writeP p m v).display = w.display := rfl
@[simp] theorem Warp.writeP_cur (w : Warp) (p : Pred) (m v : Mask) : (w.writeP p m v).cur = w.cur := rfl
@[simp] theorem Warp.writeP_lastSlot (w : Warp) (p : Pred) (m v : Mask) : (w.writeP p m v).lastSlot = w.lastSlot := rfl
@[simp] theorem Warp.writeP_slots (w : Warp) (p : Pred) (m v : Mask) : (w.writeP p m v).slots = w.slots := rfl
@[simp] theorem Warp.writeP_split (w : Warp) (p : Pred) (m v : Mask) : (w.writeP p m v).split = w.split := rfl
@[simp] theorem Warp.writeP_spill (w : Warp) (p : Pred) (m v : Mask) : (w.writeP p m v).spill = w.spill := rfl
@[simp] theorem Warp.writeP_rotation (w : Warp) (p : Pred) (m v : Mask) : (w.writeP p m v).rotation = w.rotation := rfl
@[simp] theorem Warp.writeP_exited (w : Warp) (p : Pred) (m v : Mask) : (w.writeP p m v).exited = w.exited := rfl
@[simp] theorem Warp.writeP_depth (w : Warp) (p : Pred) (m v : Mask) : (w.writeP p m v).depth = w.depth := rfl
@[simp] theorem Warp.writeP_loops (w : Warp) (p : Pred) (m v : Mask) : (w.writeP p m v).loops = w.loops := rfl
@[simp] theorem Warp.writeP_loopOrder (w : Warp) (p : Pred) (m v : Mask) : (w.writeP p m v).loopOrder = w.loopOrder := rfl
@[simp] theorem Warp.writeP_clockHi (w : Warp) (p : Pred) (m v : Mask) : (w.writeP p m v).clockHi = w.clockHi := rfl
@[simp] theorem Warp.writeP_loads (w : Warp) (p : Pred) (m v : Mask) : (w.writeP p m v).loads = w.loads := rfl
@[simp] theorem Warp.writeP_openOps (w : Warp) (p : Pred) (m v : Mask) : (w.writeP p m v).openOps = w.openOps := rfl
@[simp] theorem Warp.writeP_tileBatches (w : Warp) (p : Pred) (m v : Mask) : (w.writeP p m v).tileBatches = w.tileBatches := rfl
@[simp] theorem Warp.writeP_openCopies (w : Warp) (p : Pred) (m v : Mask) : (w.writeP p m v).openCopies = w.openCopies := rfl
@[simp] theorem Warp.writeP_copyBatches (w : Warp) (p : Pred) (m v : Mask) : (w.writeP p m v).copyBatches = w.copyBatches := rfl
@[simp] theorem Warp.writeP_leases (w : Warp) (p : Pred) (m v : Mask) : (w.writeP p m v).leases = w.leases := rfl
@[simp] theorem Warp.writeP_tokens (w : Warp) (p : Pred) (m v : Mask) : (w.writeP p m v).tokens = w.tokens := rfl
@[simp] theorem Warp.writeP_super (w : Warp) (p : Pred) (m v : Mask) : (w.writeP p m v).super = w.super := rfl
@[simp] theorem Warp.writeP_handler (w : Warp) (p : Pred) (m v : Mask) : (w.writeP p m v).handler = w.handler := rfl
@[simp] theorem Warp.writeP_faultInfo (w : Warp) (p : Pred) (m v : Mask) : (w.writeP p m v).faultInfo = w.faultInfo := rfl
@[simp] theorem Warp.writeP_faultVa (w : Warp) (p : Pred) (m v : Mask) : (w.writeP p m v).faultVa = w.faultVa := rfl
@[simp] theorem Warp.writeP_faultMask (w : Warp) (p : Pred) (m v : Mask) : (w.writeP p m v).faultMask = w.faultMask := rfl
@[simp] theorem Warp.writeP_opFaults (w : Warp) (p : Pred) (m v : Mask) : (w.writeP p m v).opFaults = w.opFaults := rfl
@[simp] theorem Warp.writeP_hold (w : Warp) (p : Pred) (m v : Mask) : (w.writeP p m v).hold = w.hold := rfl
@[simp] theorem Warp.writeP_yielded (w : Warp) (p : Pred) (m v : Mask) : (w.writeP p m v).yielded = w.yielded := rfl
@[simp] theorem Warp.writeP_replay (w : Warp) (p : Pred) (m v : Mask) : (w.writeP p m v).replay = w.replay := rfl
@[simp] theorem Warp.writeP_linkWait (w : Warp) (p : Pred) (m v : Mask) : (w.writeP p m v).linkWait = w.linkWait := rfl
@[simp] theorem Warp.writeP_joining (w : Warp) (p : Pred) (m v : Mask) : (w.writeP p m v).joining = w.joining := rfl
@[simp] theorem Warp.writeP_sleepUntil (w : Warp) (p : Pred) (m v : Mask) : (w.writeP p m v).sleepUntil = w.sleepUntil := rfl
@[simp] theorem Warp.writeP_atSwitch (w : Warp) (p : Pred) (m v : Mask) : (w.writeP p m v).atSwitch = w.atSwitch := rfl
@[simp] theorem Warp.writeP_awaitCheckpoint (w : Warp) (p : Pred) (m v : Mask) : (w.writeP p m v).awaitCheckpoint = w.awaitCheckpoint := rfl
@[simp] theorem Warp.writeP_stopped (w : Warp) (p : Pred) (m v : Mask) : (w.writeP p m v).stopped = w.stopped := rfl
@[simp] theorem Warp.writeP_recordStands (w : Warp) (p : Pred) (m v : Mask) : (w.writeP p m v).recordStands = w.recordStands := rfl
@[simp] theorem Warp.writeP_legacy (w : Warp) (p : Pred) (m v : Mask) : (w.writeP p m v).legacy = w.legacy := rfl
@[simp] theorem Warp.writeP_hinted (w : Warp) (p : Pred) (m v : Mask) : (w.writeP p m v).hinted = w.hinted := rfl
@[simp] theorem Warp.writeP_privBase (w : Warp) (p : Pred) (m v : Mask) : (w.writeP p m v).privBase = w.privBase := rfl
@[simp] theorem Warp.writeP_privsz (w : Warp) (p : Pred) (m v : Mask) : (w.writeP p m v).privsz = w.privsz := rfl

@[simp] theorem Warp.setFlags_id (w : Warp) (f : Word) : (w.setFlags f).id = w.id := rfl
@[simp] theorem Warp.setFlags_present (w : Warp) (f : Word) : (w.setFlags f).present = w.present := rfl
@[simp] theorem Warp.setFlags_core (w : Warp) (f : Word) : (w.setFlags f).core = w.core := rfl
@[simp] theorem Warp.setFlags_shuttle (w : Warp) (f : Word) : (w.setFlags f).shuttle = w.shuttle := rfl
@[simp] theorem Warp.setFlags_active (w : Warp) (f : Word) : (w.setFlags f).active = w.active := rfl
@[simp] theorem Warp.setFlags_pendingSince (w : Warp) (f : Word) : (w.setFlags f).pendingSince = w.pendingSince := rfl
@[simp] theorem Warp.setFlags_count (w : Warp) (f : Word) : (w.setFlags f).count = w.count := rfl
@[simp] theorem Warp.setFlags_scalars (w : Warp) (f : Word) : (w.setFlags f).scalars = w.scalars := rfl
@[simp] theorem Warp.setFlags_vectors (w : Warp) (f : Word) : (w.setFlags f).vectors = w.vectors := rfl
@[simp] theorem Warp.setFlags_valloc (w : Warp) (f : Word) : (w.setFlags f).valloc = w.valloc := rfl
@[simp] theorem Warp.setFlags_blockBase (w : Warp) (f : Word) : (w.setFlags f).blockBase = w.blockBase := rfl
@[simp] theorem Warp.setFlags_preds (w : Warp) (f : Word) : (w.setFlags f).preds = w.preds := rfl
@[simp] theorem Warp.setFlags_wbase (w : Warp) (f : Word) : (w.setFlags f).wbase = w.wbase := rfl
@[simp] theorem Warp.setFlags_gang (w : Warp) (f : Word) : (w.setFlags f).gang = w.gang := rfl
@[simp] theorem Warp.setFlags_level (w : Warp) (f : Word) : (w.setFlags f).level = w.level := rfl
@[simp] theorem Warp.setFlags_display (w : Warp) (f : Word) : (w.setFlags f).display = w.display := rfl
@[simp] theorem Warp.setFlags_cur (w : Warp) (f : Word) : (w.setFlags f).cur = w.cur := rfl
@[simp] theorem Warp.setFlags_lastSlot (w : Warp) (f : Word) : (w.setFlags f).lastSlot = w.lastSlot := rfl
@[simp] theorem Warp.setFlags_slots (w : Warp) (f : Word) : (w.setFlags f).slots = w.slots := rfl
@[simp] theorem Warp.setFlags_split (w : Warp) (f : Word) : (w.setFlags f).split = w.split := rfl
@[simp] theorem Warp.setFlags_spill (w : Warp) (f : Word) : (w.setFlags f).spill = w.spill := rfl
@[simp] theorem Warp.setFlags_rotation (w : Warp) (f : Word) : (w.setFlags f).rotation = w.rotation := rfl
@[simp] theorem Warp.setFlags_exited (w : Warp) (f : Word) : (w.setFlags f).exited = w.exited := rfl
@[simp] theorem Warp.setFlags_depth (w : Warp) (f : Word) : (w.setFlags f).depth = w.depth := rfl
@[simp] theorem Warp.setFlags_loops (w : Warp) (f : Word) : (w.setFlags f).loops = w.loops := rfl
@[simp] theorem Warp.setFlags_loopOrder (w : Warp) (f : Word) : (w.setFlags f).loopOrder = w.loopOrder := rfl
@[simp] theorem Warp.setFlags_clockHi (w : Warp) (f : Word) : (w.setFlags f).clockHi = w.clockHi := rfl
@[simp] theorem Warp.setFlags_loads (w : Warp) (f : Word) : (w.setFlags f).loads = w.loads := rfl
@[simp] theorem Warp.setFlags_openOps (w : Warp) (f : Word) : (w.setFlags f).openOps = w.openOps := rfl
@[simp] theorem Warp.setFlags_tileBatches (w : Warp) (f : Word) : (w.setFlags f).tileBatches = w.tileBatches := rfl
@[simp] theorem Warp.setFlags_openCopies (w : Warp) (f : Word) : (w.setFlags f).openCopies = w.openCopies := rfl
@[simp] theorem Warp.setFlags_copyBatches (w : Warp) (f : Word) : (w.setFlags f).copyBatches = w.copyBatches := rfl
@[simp] theorem Warp.setFlags_leases (w : Warp) (f : Word) : (w.setFlags f).leases = w.leases := rfl
@[simp] theorem Warp.setFlags_tokens (w : Warp) (f : Word) : (w.setFlags f).tokens = w.tokens := rfl
@[simp] theorem Warp.setFlags_super (w : Warp) (f : Word) : (w.setFlags f).super = w.super := rfl
@[simp] theorem Warp.setFlags_handler (w : Warp) (f : Word) : (w.setFlags f).handler = w.handler := rfl
@[simp] theorem Warp.setFlags_faultInfo (w : Warp) (f : Word) : (w.setFlags f).faultInfo = w.faultInfo := rfl
@[simp] theorem Warp.setFlags_faultVa (w : Warp) (f : Word) : (w.setFlags f).faultVa = w.faultVa := rfl
@[simp] theorem Warp.setFlags_faultMask (w : Warp) (f : Word) : (w.setFlags f).faultMask = w.faultMask := rfl
@[simp] theorem Warp.setFlags_opFaults (w : Warp) (f : Word) : (w.setFlags f).opFaults = w.opFaults := rfl
@[simp] theorem Warp.setFlags_hold (w : Warp) (f : Word) : (w.setFlags f).hold = w.hold := rfl
@[simp] theorem Warp.setFlags_yielded (w : Warp) (f : Word) : (w.setFlags f).yielded = w.yielded := rfl
@[simp] theorem Warp.setFlags_replay (w : Warp) (f : Word) : (w.setFlags f).replay = w.replay := rfl
@[simp] theorem Warp.setFlags_linkWait (w : Warp) (f : Word) : (w.setFlags f).linkWait = w.linkWait := rfl
@[simp] theorem Warp.setFlags_joining (w : Warp) (f : Word) : (w.setFlags f).joining = w.joining := rfl
@[simp] theorem Warp.setFlags_sleepUntil (w : Warp) (f : Word) : (w.setFlags f).sleepUntil = w.sleepUntil := rfl
@[simp] theorem Warp.setFlags_atSwitch (w : Warp) (f : Word) : (w.setFlags f).atSwitch = w.atSwitch := rfl
@[simp] theorem Warp.setFlags_awaitCheckpoint (w : Warp) (f : Word) : (w.setFlags f).awaitCheckpoint = w.awaitCheckpoint := rfl
@[simp] theorem Warp.setFlags_stopped (w : Warp) (f : Word) : (w.setFlags f).stopped = w.stopped := rfl
@[simp] theorem Warp.setFlags_recordStands (w : Warp) (f : Word) : (w.setFlags f).recordStands = w.recordStands := rfl
@[simp] theorem Warp.setFlags_legacy (w : Warp) (f : Word) : (w.setFlags f).legacy = w.legacy := rfl
@[simp] theorem Warp.setFlags_hinted (w : Warp) (f : Word) : (w.setFlags f).hinted = w.hinted := rfl
@[simp] theorem Warp.setFlags_privBase (w : Warp) (f : Word) : (w.setFlags f).privBase = w.privBase := rfl
@[simp] theorem Warp.setFlags_privsz (w : Warp) (f : Word) : (w.setFlags f).privsz = w.privsz := rfl
@[simp] theorem Warp.setFlags_logged (w : Warp) (f : Word) : (w.setFlags f).logged = w.logged := rfl

@[simp] theorem Warp.setFrag_id (w : Warp) (f : Fragment → Fragment) : (w.setFrag f).id = w.id := rfl
@[simp] theorem Warp.setFrag_present (w : Warp) (f : Fragment → Fragment) : (w.setFrag f).present = w.present := rfl
@[simp] theorem Warp.setFrag_core (w : Warp) (f : Fragment → Fragment) : (w.setFrag f).core = w.core := rfl
@[simp] theorem Warp.setFrag_shuttle (w : Warp) (f : Fragment → Fragment) : (w.setFrag f).shuttle = w.shuttle := rfl
@[simp] theorem Warp.setFrag_active (w : Warp) (f : Fragment → Fragment) : (w.setFrag f).active = w.active := rfl
@[simp] theorem Warp.setFrag_pendingSince (w : Warp) (f : Fragment → Fragment) : (w.setFrag f).pendingSince = w.pendingSince := rfl
@[simp] theorem Warp.setFrag_count (w : Warp) (f : Fragment → Fragment) : (w.setFrag f).count = w.count := rfl
@[simp] theorem Warp.setFrag_scalars (w : Warp) (f : Fragment → Fragment) : (w.setFrag f).scalars = w.scalars := rfl
@[simp] theorem Warp.setFrag_vectors (w : Warp) (f : Fragment → Fragment) : (w.setFrag f).vectors = w.vectors := rfl
@[simp] theorem Warp.setFrag_valloc (w : Warp) (f : Fragment → Fragment) : (w.setFrag f).valloc = w.valloc := rfl
@[simp] theorem Warp.setFrag_blockBase (w : Warp) (f : Fragment → Fragment) : (w.setFrag f).blockBase = w.blockBase := rfl
@[simp] theorem Warp.setFrag_preds (w : Warp) (f : Fragment → Fragment) : (w.setFrag f).preds = w.preds := rfl
@[simp] theorem Warp.setFrag_wbase (w : Warp) (f : Fragment → Fragment) : (w.setFrag f).wbase = w.wbase := rfl
@[simp] theorem Warp.setFrag_gang (w : Warp) (f : Fragment → Fragment) : (w.setFrag f).gang = w.gang := rfl
@[simp] theorem Warp.setFrag_nflags (w : Warp) (f : Fragment → Fragment) : (w.setFrag f).nflags = w.nflags := rfl
@[simp] theorem Warp.setFrag_level (w : Warp) (f : Fragment → Fragment) : (w.setFrag f).level = w.level := rfl
@[simp] theorem Warp.setFrag_display (w : Warp) (f : Fragment → Fragment) : (w.setFrag f).display = w.display := rfl
@[simp] theorem Warp.setFrag_cur (w : Warp) (f : Fragment → Fragment) : (w.setFrag f).cur = w.cur := rfl
@[simp] theorem Warp.setFrag_lastSlot (w : Warp) (f : Fragment → Fragment) : (w.setFrag f).lastSlot = w.lastSlot := rfl
@[simp] theorem Warp.setFrag_split (w : Warp) (f : Fragment → Fragment) : (w.setFrag f).split = w.split := rfl
@[simp] theorem Warp.setFrag_spill (w : Warp) (f : Fragment → Fragment) : (w.setFrag f).spill = w.spill := rfl
@[simp] theorem Warp.setFrag_rotation (w : Warp) (f : Fragment → Fragment) : (w.setFrag f).rotation = w.rotation := rfl
@[simp] theorem Warp.setFrag_exited (w : Warp) (f : Fragment → Fragment) : (w.setFrag f).exited = w.exited := rfl
@[simp] theorem Warp.setFrag_depth (w : Warp) (f : Fragment → Fragment) : (w.setFrag f).depth = w.depth := rfl
@[simp] theorem Warp.setFrag_loops (w : Warp) (f : Fragment → Fragment) : (w.setFrag f).loops = w.loops := rfl
@[simp] theorem Warp.setFrag_loopOrder (w : Warp) (f : Fragment → Fragment) : (w.setFrag f).loopOrder = w.loopOrder := rfl
@[simp] theorem Warp.setFrag_clockHi (w : Warp) (f : Fragment → Fragment) : (w.setFrag f).clockHi = w.clockHi := rfl
@[simp] theorem Warp.setFrag_loads (w : Warp) (f : Fragment → Fragment) : (w.setFrag f).loads = w.loads := rfl
@[simp] theorem Warp.setFrag_openOps (w : Warp) (f : Fragment → Fragment) : (w.setFrag f).openOps = w.openOps := rfl
@[simp] theorem Warp.setFrag_tileBatches (w : Warp) (f : Fragment → Fragment) : (w.setFrag f).tileBatches = w.tileBatches := rfl
@[simp] theorem Warp.setFrag_openCopies (w : Warp) (f : Fragment → Fragment) : (w.setFrag f).openCopies = w.openCopies := rfl
@[simp] theorem Warp.setFrag_copyBatches (w : Warp) (f : Fragment → Fragment) : (w.setFrag f).copyBatches = w.copyBatches := rfl
@[simp] theorem Warp.setFrag_leases (w : Warp) (f : Fragment → Fragment) : (w.setFrag f).leases = w.leases := rfl
@[simp] theorem Warp.setFrag_tokens (w : Warp) (f : Fragment → Fragment) : (w.setFrag f).tokens = w.tokens := rfl
@[simp] theorem Warp.setFrag_super (w : Warp) (f : Fragment → Fragment) : (w.setFrag f).super = w.super := rfl
@[simp] theorem Warp.setFrag_handler (w : Warp) (f : Fragment → Fragment) : (w.setFrag f).handler = w.handler := rfl
@[simp] theorem Warp.setFrag_faultInfo (w : Warp) (f : Fragment → Fragment) : (w.setFrag f).faultInfo = w.faultInfo := rfl
@[simp] theorem Warp.setFrag_faultVa (w : Warp) (f : Fragment → Fragment) : (w.setFrag f).faultVa = w.faultVa := rfl
@[simp] theorem Warp.setFrag_faultMask (w : Warp) (f : Fragment → Fragment) : (w.setFrag f).faultMask = w.faultMask := rfl
@[simp] theorem Warp.setFrag_opFaults (w : Warp) (f : Fragment → Fragment) : (w.setFrag f).opFaults = w.opFaults := rfl
@[simp] theorem Warp.setFrag_hold (w : Warp) (f : Fragment → Fragment) : (w.setFrag f).hold = w.hold := rfl
@[simp] theorem Warp.setFrag_yielded (w : Warp) (f : Fragment → Fragment) : (w.setFrag f).yielded = w.yielded := rfl
@[simp] theorem Warp.setFrag_replay (w : Warp) (f : Fragment → Fragment) : (w.setFrag f).replay = w.replay := rfl
@[simp] theorem Warp.setFrag_linkWait (w : Warp) (f : Fragment → Fragment) : (w.setFrag f).linkWait = w.linkWait := rfl
@[simp] theorem Warp.setFrag_joining (w : Warp) (f : Fragment → Fragment) : (w.setFrag f).joining = w.joining := rfl
@[simp] theorem Warp.setFrag_sleepUntil (w : Warp) (f : Fragment → Fragment) : (w.setFrag f).sleepUntil = w.sleepUntil := rfl
@[simp] theorem Warp.setFrag_atSwitch (w : Warp) (f : Fragment → Fragment) : (w.setFrag f).atSwitch = w.atSwitch := rfl
@[simp] theorem Warp.setFrag_awaitCheckpoint (w : Warp) (f : Fragment → Fragment) : (w.setFrag f).awaitCheckpoint = w.awaitCheckpoint := rfl
@[simp] theorem Warp.setFrag_stopped (w : Warp) (f : Fragment → Fragment) : (w.setFrag f).stopped = w.stopped := rfl
@[simp] theorem Warp.setFrag_recordStands (w : Warp) (f : Fragment → Fragment) : (w.setFrag f).recordStands = w.recordStands := rfl
@[simp] theorem Warp.setFrag_legacy (w : Warp) (f : Fragment → Fragment) : (w.setFrag f).legacy = w.legacy := rfl
@[simp] theorem Warp.setFrag_hinted (w : Warp) (f : Fragment → Fragment) : (w.setFrag f).hinted = w.hinted := rfl
@[simp] theorem Warp.setFrag_privBase (w : Warp) (f : Fragment → Fragment) : (w.setFrag f).privBase = w.privBase := rfl
@[simp] theorem Warp.setFrag_privsz (w : Warp) (f : Fragment → Fragment) : (w.setFrag f).privsz = w.privsz := rfl
@[simp] theorem Warp.setFrag_logged (w : Warp) (f : Fragment → Fragment) : (w.setFrag f).logged = w.logged := rfl

@[simp] theorem Warp.freeLevel_id (w : Warp) (l : Fin 4) : (w.freeLevel l).id = w.id := rfl
@[simp] theorem Warp.freeLevel_present (w : Warp) (l : Fin 4) : (w.freeLevel l).present = w.present := rfl
@[simp] theorem Warp.freeLevel_core (w : Warp) (l : Fin 4) : (w.freeLevel l).core = w.core := rfl
@[simp] theorem Warp.freeLevel_shuttle (w : Warp) (l : Fin 4) : (w.freeLevel l).shuttle = w.shuttle := rfl
@[simp] theorem Warp.freeLevel_active (w : Warp) (l : Fin 4) : (w.freeLevel l).active = w.active := rfl
@[simp] theorem Warp.freeLevel_pendingSince (w : Warp) (l : Fin 4) : (w.freeLevel l).pendingSince = w.pendingSince := rfl
@[simp] theorem Warp.freeLevel_count (w : Warp) (l : Fin 4) : (w.freeLevel l).count = w.count := rfl
@[simp] theorem Warp.freeLevel_scalars (w : Warp) (l : Fin 4) : (w.freeLevel l).scalars = w.scalars := rfl
@[simp] theorem Warp.freeLevel_vectors (w : Warp) (l : Fin 4) : (w.freeLevel l).vectors = w.vectors := rfl
@[simp] theorem Warp.freeLevel_valloc (w : Warp) (l : Fin 4) : (w.freeLevel l).valloc = w.valloc := rfl
@[simp] theorem Warp.freeLevel_blockBase (w : Warp) (l : Fin 4) : (w.freeLevel l).blockBase = w.blockBase := rfl
@[simp] theorem Warp.freeLevel_preds (w : Warp) (l : Fin 4) : (w.freeLevel l).preds = w.preds := rfl
@[simp] theorem Warp.freeLevel_wbase (w : Warp) (l : Fin 4) : (w.freeLevel l).wbase = w.wbase := rfl
@[simp] theorem Warp.freeLevel_gang (w : Warp) (l : Fin 4) : (w.freeLevel l).gang = w.gang := rfl
@[simp] theorem Warp.freeLevel_nflags (w : Warp) (l : Fin 4) : (w.freeLevel l).nflags = w.nflags := rfl
@[simp] theorem Warp.freeLevel_level (w : Warp) (l : Fin 4) : (w.freeLevel l).level = w.level := rfl
@[simp] theorem Warp.freeLevel_display (w : Warp) (l : Fin 4) : (w.freeLevel l).display = w.display := rfl
@[simp] theorem Warp.freeLevel_cur (w : Warp) (l : Fin 4) : (w.freeLevel l).cur = w.cur := rfl
@[simp] theorem Warp.freeLevel_lastSlot (w : Warp) (l : Fin 4) : (w.freeLevel l).lastSlot = w.lastSlot := rfl
@[simp] theorem Warp.freeLevel_slots (w : Warp) (l : Fin 4) : (w.freeLevel l).slots = w.slots := rfl
@[simp] theorem Warp.freeLevel_split (w : Warp) (l : Fin 4) : (w.freeLevel l).split = w.split := rfl
@[simp] theorem Warp.freeLevel_spill (w : Warp) (l : Fin 4) : (w.freeLevel l).spill = w.spill := rfl
@[simp] theorem Warp.freeLevel_rotation (w : Warp) (l : Fin 4) : (w.freeLevel l).rotation = w.rotation := rfl
@[simp] theorem Warp.freeLevel_exited (w : Warp) (l : Fin 4) : (w.freeLevel l).exited = w.exited := rfl
@[simp] theorem Warp.freeLevel_depth (w : Warp) (l : Fin 4) : (w.freeLevel l).depth = w.depth := rfl
@[simp] theorem Warp.freeLevel_loopOrder (w : Warp) (l : Fin 4) : (w.freeLevel l).loopOrder = w.loopOrder := rfl
@[simp] theorem Warp.freeLevel_clockHi (w : Warp) (l : Fin 4) : (w.freeLevel l).clockHi = w.clockHi := rfl
@[simp] theorem Warp.freeLevel_loads (w : Warp) (l : Fin 4) : (w.freeLevel l).loads = w.loads := rfl
@[simp] theorem Warp.freeLevel_openOps (w : Warp) (l : Fin 4) : (w.freeLevel l).openOps = w.openOps := rfl
@[simp] theorem Warp.freeLevel_tileBatches (w : Warp) (l : Fin 4) : (w.freeLevel l).tileBatches = w.tileBatches := rfl
@[simp] theorem Warp.freeLevel_openCopies (w : Warp) (l : Fin 4) : (w.freeLevel l).openCopies = w.openCopies := rfl
@[simp] theorem Warp.freeLevel_copyBatches (w : Warp) (l : Fin 4) : (w.freeLevel l).copyBatches = w.copyBatches := rfl
@[simp] theorem Warp.freeLevel_leases (w : Warp) (l : Fin 4) : (w.freeLevel l).leases = w.leases := rfl
@[simp] theorem Warp.freeLevel_tokens (w : Warp) (l : Fin 4) : (w.freeLevel l).tokens = w.tokens := rfl
@[simp] theorem Warp.freeLevel_super (w : Warp) (l : Fin 4) : (w.freeLevel l).super = w.super := rfl
@[simp] theorem Warp.freeLevel_handler (w : Warp) (l : Fin 4) : (w.freeLevel l).handler = w.handler := rfl
@[simp] theorem Warp.freeLevel_faultInfo (w : Warp) (l : Fin 4) : (w.freeLevel l).faultInfo = w.faultInfo := rfl
@[simp] theorem Warp.freeLevel_faultVa (w : Warp) (l : Fin 4) : (w.freeLevel l).faultVa = w.faultVa := rfl
@[simp] theorem Warp.freeLevel_faultMask (w : Warp) (l : Fin 4) : (w.freeLevel l).faultMask = w.faultMask := rfl
@[simp] theorem Warp.freeLevel_opFaults (w : Warp) (l : Fin 4) : (w.freeLevel l).opFaults = w.opFaults := rfl
@[simp] theorem Warp.freeLevel_hold (w : Warp) (l : Fin 4) : (w.freeLevel l).hold = w.hold := rfl
@[simp] theorem Warp.freeLevel_yielded (w : Warp) (l : Fin 4) : (w.freeLevel l).yielded = w.yielded := rfl
@[simp] theorem Warp.freeLevel_replay (w : Warp) (l : Fin 4) : (w.freeLevel l).replay = w.replay := rfl
@[simp] theorem Warp.freeLevel_linkWait (w : Warp) (l : Fin 4) : (w.freeLevel l).linkWait = w.linkWait := rfl
@[simp] theorem Warp.freeLevel_joining (w : Warp) (l : Fin 4) : (w.freeLevel l).joining = w.joining := rfl
@[simp] theorem Warp.freeLevel_sleepUntil (w : Warp) (l : Fin 4) : (w.freeLevel l).sleepUntil = w.sleepUntil := rfl
@[simp] theorem Warp.freeLevel_atSwitch (w : Warp) (l : Fin 4) : (w.freeLevel l).atSwitch = w.atSwitch := rfl
@[simp] theorem Warp.freeLevel_awaitCheckpoint (w : Warp) (l : Fin 4) : (w.freeLevel l).awaitCheckpoint = w.awaitCheckpoint := rfl
@[simp] theorem Warp.freeLevel_stopped (w : Warp) (l : Fin 4) : (w.freeLevel l).stopped = w.stopped := rfl
@[simp] theorem Warp.freeLevel_recordStands (w : Warp) (l : Fin 4) : (w.freeLevel l).recordStands = w.recordStands := rfl
@[simp] theorem Warp.freeLevel_legacy (w : Warp) (l : Fin 4) : (w.freeLevel l).legacy = w.legacy := rfl
@[simp] theorem Warp.freeLevel_hinted (w : Warp) (l : Fin 4) : (w.freeLevel l).hinted = w.hinted := rfl
@[simp] theorem Warp.freeLevel_privBase (w : Warp) (l : Fin 4) : (w.freeLevel l).privBase = w.privBase := rfl
@[simp] theorem Warp.freeLevel_privsz (w : Warp) (l : Fin 4) : (w.freeLevel l).privsz = w.privsz := rfl
@[simp] theorem Warp.freeLevel_logged (w : Warp) (l : Fin 4) : (w.freeLevel l).logged = w.logged := rfl

@[simp] theorem Warp.setEntry_id (w : Warp) (i : Nat) (e : SplitEntry) : (w.setEntry i e).id = w.id := rfl
@[simp] theorem Warp.setEntry_present (w : Warp) (i : Nat) (e : SplitEntry) : (w.setEntry i e).present = w.present := rfl
@[simp] theorem Warp.setEntry_core (w : Warp) (i : Nat) (e : SplitEntry) : (w.setEntry i e).core = w.core := rfl
@[simp] theorem Warp.setEntry_shuttle (w : Warp) (i : Nat) (e : SplitEntry) : (w.setEntry i e).shuttle = w.shuttle := rfl
@[simp] theorem Warp.setEntry_active (w : Warp) (i : Nat) (e : SplitEntry) : (w.setEntry i e).active = w.active := rfl
@[simp] theorem Warp.setEntry_pendingSince (w : Warp) (i : Nat) (e : SplitEntry) : (w.setEntry i e).pendingSince = w.pendingSince := rfl
@[simp] theorem Warp.setEntry_count (w : Warp) (i : Nat) (e : SplitEntry) : (w.setEntry i e).count = w.count := rfl
@[simp] theorem Warp.setEntry_scalars (w : Warp) (i : Nat) (e : SplitEntry) : (w.setEntry i e).scalars = w.scalars := rfl
@[simp] theorem Warp.setEntry_vectors (w : Warp) (i : Nat) (e : SplitEntry) : (w.setEntry i e).vectors = w.vectors := rfl
@[simp] theorem Warp.setEntry_valloc (w : Warp) (i : Nat) (e : SplitEntry) : (w.setEntry i e).valloc = w.valloc := rfl
@[simp] theorem Warp.setEntry_blockBase (w : Warp) (i : Nat) (e : SplitEntry) : (w.setEntry i e).blockBase = w.blockBase := rfl
@[simp] theorem Warp.setEntry_preds (w : Warp) (i : Nat) (e : SplitEntry) : (w.setEntry i e).preds = w.preds := rfl
@[simp] theorem Warp.setEntry_wbase (w : Warp) (i : Nat) (e : SplitEntry) : (w.setEntry i e).wbase = w.wbase := rfl
@[simp] theorem Warp.setEntry_gang (w : Warp) (i : Nat) (e : SplitEntry) : (w.setEntry i e).gang = w.gang := rfl
@[simp] theorem Warp.setEntry_nflags (w : Warp) (i : Nat) (e : SplitEntry) : (w.setEntry i e).nflags = w.nflags := rfl
@[simp] theorem Warp.setEntry_level (w : Warp) (i : Nat) (e : SplitEntry) : (w.setEntry i e).level = w.level := rfl
@[simp] theorem Warp.setEntry_display (w : Warp) (i : Nat) (e : SplitEntry) : (w.setEntry i e).display = w.display := rfl
@[simp] theorem Warp.setEntry_cur (w : Warp) (i : Nat) (e : SplitEntry) : (w.setEntry i e).cur = w.cur := rfl
@[simp] theorem Warp.setEntry_lastSlot (w : Warp) (i : Nat) (e : SplitEntry) : (w.setEntry i e).lastSlot = w.lastSlot := rfl
@[simp] theorem Warp.setEntry_slots (w : Warp) (i : Nat) (e : SplitEntry) : (w.setEntry i e).slots = w.slots := rfl
@[simp] theorem Warp.setEntry_spill (w : Warp) (i : Nat) (e : SplitEntry) : (w.setEntry i e).spill = w.spill := rfl
@[simp] theorem Warp.setEntry_rotation (w : Warp) (i : Nat) (e : SplitEntry) : (w.setEntry i e).rotation = w.rotation := rfl
@[simp] theorem Warp.setEntry_exited (w : Warp) (i : Nat) (e : SplitEntry) : (w.setEntry i e).exited = w.exited := rfl
@[simp] theorem Warp.setEntry_depth (w : Warp) (i : Nat) (e : SplitEntry) : (w.setEntry i e).depth = w.depth := rfl
@[simp] theorem Warp.setEntry_loops (w : Warp) (i : Nat) (e : SplitEntry) : (w.setEntry i e).loops = w.loops := rfl
@[simp] theorem Warp.setEntry_loopOrder (w : Warp) (i : Nat) (e : SplitEntry) : (w.setEntry i e).loopOrder = w.loopOrder := rfl
@[simp] theorem Warp.setEntry_clockHi (w : Warp) (i : Nat) (e : SplitEntry) : (w.setEntry i e).clockHi = w.clockHi := rfl
@[simp] theorem Warp.setEntry_loads (w : Warp) (i : Nat) (e : SplitEntry) : (w.setEntry i e).loads = w.loads := rfl
@[simp] theorem Warp.setEntry_openOps (w : Warp) (i : Nat) (e : SplitEntry) : (w.setEntry i e).openOps = w.openOps := rfl
@[simp] theorem Warp.setEntry_tileBatches (w : Warp) (i : Nat) (e : SplitEntry) : (w.setEntry i e).tileBatches = w.tileBatches := rfl
@[simp] theorem Warp.setEntry_openCopies (w : Warp) (i : Nat) (e : SplitEntry) : (w.setEntry i e).openCopies = w.openCopies := rfl
@[simp] theorem Warp.setEntry_copyBatches (w : Warp) (i : Nat) (e : SplitEntry) : (w.setEntry i e).copyBatches = w.copyBatches := rfl
@[simp] theorem Warp.setEntry_leases (w : Warp) (i : Nat) (e : SplitEntry) : (w.setEntry i e).leases = w.leases := rfl
@[simp] theorem Warp.setEntry_tokens (w : Warp) (i : Nat) (e : SplitEntry) : (w.setEntry i e).tokens = w.tokens := rfl
@[simp] theorem Warp.setEntry_super (w : Warp) (i : Nat) (e : SplitEntry) : (w.setEntry i e).super = w.super := rfl
@[simp] theorem Warp.setEntry_handler (w : Warp) (i : Nat) (e : SplitEntry) : (w.setEntry i e).handler = w.handler := rfl
@[simp] theorem Warp.setEntry_faultInfo (w : Warp) (i : Nat) (e : SplitEntry) : (w.setEntry i e).faultInfo = w.faultInfo := rfl
@[simp] theorem Warp.setEntry_faultVa (w : Warp) (i : Nat) (e : SplitEntry) : (w.setEntry i e).faultVa = w.faultVa := rfl
@[simp] theorem Warp.setEntry_faultMask (w : Warp) (i : Nat) (e : SplitEntry) : (w.setEntry i e).faultMask = w.faultMask := rfl
@[simp] theorem Warp.setEntry_opFaults (w : Warp) (i : Nat) (e : SplitEntry) : (w.setEntry i e).opFaults = w.opFaults := rfl
@[simp] theorem Warp.setEntry_hold (w : Warp) (i : Nat) (e : SplitEntry) : (w.setEntry i e).hold = w.hold := rfl
@[simp] theorem Warp.setEntry_yielded (w : Warp) (i : Nat) (e : SplitEntry) : (w.setEntry i e).yielded = w.yielded := rfl
@[simp] theorem Warp.setEntry_replay (w : Warp) (i : Nat) (e : SplitEntry) : (w.setEntry i e).replay = w.replay := rfl
@[simp] theorem Warp.setEntry_linkWait (w : Warp) (i : Nat) (e : SplitEntry) : (w.setEntry i e).linkWait = w.linkWait := rfl
@[simp] theorem Warp.setEntry_joining (w : Warp) (i : Nat) (e : SplitEntry) : (w.setEntry i e).joining = w.joining := rfl
@[simp] theorem Warp.setEntry_sleepUntil (w : Warp) (i : Nat) (e : SplitEntry) : (w.setEntry i e).sleepUntil = w.sleepUntil := rfl
@[simp] theorem Warp.setEntry_atSwitch (w : Warp) (i : Nat) (e : SplitEntry) : (w.setEntry i e).atSwitch = w.atSwitch := rfl
@[simp] theorem Warp.setEntry_awaitCheckpoint (w : Warp) (i : Nat) (e : SplitEntry) : (w.setEntry i e).awaitCheckpoint = w.awaitCheckpoint := rfl
@[simp] theorem Warp.setEntry_stopped (w : Warp) (i : Nat) (e : SplitEntry) : (w.setEntry i e).stopped = w.stopped := rfl
@[simp] theorem Warp.setEntry_recordStands (w : Warp) (i : Nat) (e : SplitEntry) : (w.setEntry i e).recordStands = w.recordStands := rfl
@[simp] theorem Warp.setEntry_legacy (w : Warp) (i : Nat) (e : SplitEntry) : (w.setEntry i e).legacy = w.legacy := rfl
@[simp] theorem Warp.setEntry_hinted (w : Warp) (i : Nat) (e : SplitEntry) : (w.setEntry i e).hinted = w.hinted := rfl
@[simp] theorem Warp.setEntry_privBase (w : Warp) (i : Nat) (e : SplitEntry) : (w.setEntry i e).privBase = w.privBase := rfl
@[simp] theorem Warp.setEntry_privsz (w : Warp) (i : Nat) (e : SplitEntry) : (w.setEntry i e).privsz = w.privsz := rfl
@[simp] theorem Warp.setEntry_logged (w : Warp) (i : Nat) (e : SplitEntry) : (w.setEntry i e).logged = w.logged := rfl

@[simp] theorem Warp.writeS_id (w : Warp) (r : Reg) (v : Word) : (w.writeS r v).id = w.id := by
  unfold Warp.writeS; split <;> rfl
@[simp] theorem Warp.writeS_present (w : Warp) (r : Reg) (v : Word) : (w.writeS r v).present = w.present := by
  unfold Warp.writeS; split <;> rfl
@[simp] theorem Warp.writeS_core (w : Warp) (r : Reg) (v : Word) : (w.writeS r v).core = w.core := by
  unfold Warp.writeS; split <;> rfl
@[simp] theorem Warp.writeS_shuttle (w : Warp) (r : Reg) (v : Word) : (w.writeS r v).shuttle = w.shuttle := by
  unfold Warp.writeS; split <;> rfl
@[simp] theorem Warp.writeS_active (w : Warp) (r : Reg) (v : Word) : (w.writeS r v).active = w.active := by
  unfold Warp.writeS; split <;> rfl
@[simp] theorem Warp.writeS_pendingSince (w : Warp) (r : Reg) (v : Word) : (w.writeS r v).pendingSince = w.pendingSince := by
  unfold Warp.writeS; split <;> rfl
@[simp] theorem Warp.writeS_count (w : Warp) (r : Reg) (v : Word) : (w.writeS r v).count = w.count := by
  unfold Warp.writeS; split <;> rfl
@[simp] theorem Warp.writeS_vectors (w : Warp) (r : Reg) (v : Word) : (w.writeS r v).vectors = w.vectors := by
  unfold Warp.writeS; split <;> rfl
@[simp] theorem Warp.writeS_valloc (w : Warp) (r : Reg) (v : Word) : (w.writeS r v).valloc = w.valloc := by
  unfold Warp.writeS; split <;> rfl
@[simp] theorem Warp.writeS_blockBase (w : Warp) (r : Reg) (v : Word) : (w.writeS r v).blockBase = w.blockBase := by
  unfold Warp.writeS; split <;> rfl
@[simp] theorem Warp.writeS_preds (w : Warp) (r : Reg) (v : Word) : (w.writeS r v).preds = w.preds := by
  unfold Warp.writeS; split <;> rfl
@[simp] theorem Warp.writeS_wbase (w : Warp) (r : Reg) (v : Word) : (w.writeS r v).wbase = w.wbase := by
  unfold Warp.writeS; split <;> rfl
@[simp] theorem Warp.writeS_gang (w : Warp) (r : Reg) (v : Word) : (w.writeS r v).gang = w.gang := by
  unfold Warp.writeS; split <;> rfl
@[simp] theorem Warp.writeS_nflags (w : Warp) (r : Reg) (v : Word) : (w.writeS r v).nflags = w.nflags := by
  unfold Warp.writeS; split <;> rfl
@[simp] theorem Warp.writeS_level (w : Warp) (r : Reg) (v : Word) : (w.writeS r v).level = w.level := by
  unfold Warp.writeS; split <;> rfl
@[simp] theorem Warp.writeS_display (w : Warp) (r : Reg) (v : Word) : (w.writeS r v).display = w.display := by
  unfold Warp.writeS; split <;> rfl
@[simp] theorem Warp.writeS_cur (w : Warp) (r : Reg) (v : Word) : (w.writeS r v).cur = w.cur := by
  unfold Warp.writeS; split <;> rfl
@[simp] theorem Warp.writeS_lastSlot (w : Warp) (r : Reg) (v : Word) : (w.writeS r v).lastSlot = w.lastSlot := by
  unfold Warp.writeS; split <;> rfl
@[simp] theorem Warp.writeS_slots (w : Warp) (r : Reg) (v : Word) : (w.writeS r v).slots = w.slots := by
  unfold Warp.writeS; split <;> rfl
@[simp] theorem Warp.writeS_split (w : Warp) (r : Reg) (v : Word) : (w.writeS r v).split = w.split := by
  unfold Warp.writeS; split <;> rfl
@[simp] theorem Warp.writeS_spill (w : Warp) (r : Reg) (v : Word) : (w.writeS r v).spill = w.spill := by
  unfold Warp.writeS; split <;> rfl
@[simp] theorem Warp.writeS_rotation (w : Warp) (r : Reg) (v : Word) : (w.writeS r v).rotation = w.rotation := by
  unfold Warp.writeS; split <;> rfl
@[simp] theorem Warp.writeS_exited (w : Warp) (r : Reg) (v : Word) : (w.writeS r v).exited = w.exited := by
  unfold Warp.writeS; split <;> rfl
@[simp] theorem Warp.writeS_depth (w : Warp) (r : Reg) (v : Word) : (w.writeS r v).depth = w.depth := by
  unfold Warp.writeS; split <;> rfl
@[simp] theorem Warp.writeS_loops (w : Warp) (r : Reg) (v : Word) : (w.writeS r v).loops = w.loops := by
  unfold Warp.writeS; split <;> rfl
@[simp] theorem Warp.writeS_loopOrder (w : Warp) (r : Reg) (v : Word) : (w.writeS r v).loopOrder = w.loopOrder := by
  unfold Warp.writeS; split <;> rfl
@[simp] theorem Warp.writeS_clockHi (w : Warp) (r : Reg) (v : Word) : (w.writeS r v).clockHi = w.clockHi := by
  unfold Warp.writeS; split <;> rfl
@[simp] theorem Warp.writeS_loads (w : Warp) (r : Reg) (v : Word) : (w.writeS r v).loads = w.loads := by
  unfold Warp.writeS; split <;> rfl
@[simp] theorem Warp.writeS_openOps (w : Warp) (r : Reg) (v : Word) : (w.writeS r v).openOps = w.openOps := by
  unfold Warp.writeS; split <;> rfl
@[simp] theorem Warp.writeS_tileBatches (w : Warp) (r : Reg) (v : Word) : (w.writeS r v).tileBatches = w.tileBatches := by
  unfold Warp.writeS; split <;> rfl
@[simp] theorem Warp.writeS_openCopies (w : Warp) (r : Reg) (v : Word) : (w.writeS r v).openCopies = w.openCopies := by
  unfold Warp.writeS; split <;> rfl
@[simp] theorem Warp.writeS_copyBatches (w : Warp) (r : Reg) (v : Word) : (w.writeS r v).copyBatches = w.copyBatches := by
  unfold Warp.writeS; split <;> rfl
@[simp] theorem Warp.writeS_leases (w : Warp) (r : Reg) (v : Word) : (w.writeS r v).leases = w.leases := by
  unfold Warp.writeS; split <;> rfl
@[simp] theorem Warp.writeS_tokens (w : Warp) (r : Reg) (v : Word) : (w.writeS r v).tokens = w.tokens := by
  unfold Warp.writeS; split <;> rfl
@[simp] theorem Warp.writeS_super (w : Warp) (r : Reg) (v : Word) : (w.writeS r v).super = w.super := by
  unfold Warp.writeS; split <;> rfl
@[simp] theorem Warp.writeS_handler (w : Warp) (r : Reg) (v : Word) : (w.writeS r v).handler = w.handler := by
  unfold Warp.writeS; split <;> rfl
@[simp] theorem Warp.writeS_faultInfo (w : Warp) (r : Reg) (v : Word) : (w.writeS r v).faultInfo = w.faultInfo := by
  unfold Warp.writeS; split <;> rfl
@[simp] theorem Warp.writeS_faultVa (w : Warp) (r : Reg) (v : Word) : (w.writeS r v).faultVa = w.faultVa := by
  unfold Warp.writeS; split <;> rfl
@[simp] theorem Warp.writeS_faultMask (w : Warp) (r : Reg) (v : Word) : (w.writeS r v).faultMask = w.faultMask := by
  unfold Warp.writeS; split <;> rfl
@[simp] theorem Warp.writeS_opFaults (w : Warp) (r : Reg) (v : Word) : (w.writeS r v).opFaults = w.opFaults := by
  unfold Warp.writeS; split <;> rfl
@[simp] theorem Warp.writeS_hold (w : Warp) (r : Reg) (v : Word) : (w.writeS r v).hold = w.hold := by
  unfold Warp.writeS; split <;> rfl
@[simp] theorem Warp.writeS_yielded (w : Warp) (r : Reg) (v : Word) : (w.writeS r v).yielded = w.yielded := by
  unfold Warp.writeS; split <;> rfl
@[simp] theorem Warp.writeS_replay (w : Warp) (r : Reg) (v : Word) : (w.writeS r v).replay = w.replay := by
  unfold Warp.writeS; split <;> rfl
@[simp] theorem Warp.writeS_linkWait (w : Warp) (r : Reg) (v : Word) : (w.writeS r v).linkWait = w.linkWait := by
  unfold Warp.writeS; split <;> rfl
@[simp] theorem Warp.writeS_joining (w : Warp) (r : Reg) (v : Word) : (w.writeS r v).joining = w.joining := by
  unfold Warp.writeS; split <;> rfl
@[simp] theorem Warp.writeS_sleepUntil (w : Warp) (r : Reg) (v : Word) : (w.writeS r v).sleepUntil = w.sleepUntil := by
  unfold Warp.writeS; split <;> rfl
@[simp] theorem Warp.writeS_atSwitch (w : Warp) (r : Reg) (v : Word) : (w.writeS r v).atSwitch = w.atSwitch := by
  unfold Warp.writeS; split <;> rfl
@[simp] theorem Warp.writeS_awaitCheckpoint (w : Warp) (r : Reg) (v : Word) : (w.writeS r v).awaitCheckpoint = w.awaitCheckpoint := by
  unfold Warp.writeS; split <;> rfl
@[simp] theorem Warp.writeS_stopped (w : Warp) (r : Reg) (v : Word) : (w.writeS r v).stopped = w.stopped := by
  unfold Warp.writeS; split <;> rfl
@[simp] theorem Warp.writeS_recordStands (w : Warp) (r : Reg) (v : Word) : (w.writeS r v).recordStands = w.recordStands := by
  unfold Warp.writeS; split <;> rfl
@[simp] theorem Warp.writeS_legacy (w : Warp) (r : Reg) (v : Word) : (w.writeS r v).legacy = w.legacy := by
  unfold Warp.writeS; split <;> rfl
@[simp] theorem Warp.writeS_hinted (w : Warp) (r : Reg) (v : Word) : (w.writeS r v).hinted = w.hinted := by
  unfold Warp.writeS; split <;> rfl
@[simp] theorem Warp.writeS_privBase (w : Warp) (r : Reg) (v : Word) : (w.writeS r v).privBase = w.privBase := by
  unfold Warp.writeS; split <;> rfl
@[simp] theorem Warp.writeS_privsz (w : Warp) (r : Reg) (v : Word) : (w.writeS r v).privsz = w.privsz := by
  unfold Warp.writeS; split <;> rfl

end Sys2Proof.Machine
end

