-- ==== Sys2Proof/Laws/Advance.lean ====
section
/-!
SUPPORT. Everything that `Warp.advance` can do (R103, R184): it moves the issuing fragment and counts or frees loop levels, and nothing
else of the warp changes.
-/

namespace Sys2Proof.Machine

/-- The loop-end action changes the loop levels only. -/
theorem Warp.loopEnd_only (pc : Addr) : ∀ (n : Nat) (w : Warp), (w.loopEnd pc n).1 = { w with loops := (w.loopEnd pc n).1.loops }
  | 0, _ => rfl
  | n + 1, w => by
    unfold Warp.loopEnd
    split
    · rfl
    · split
      · rfl
      · dsimp only
        split
        · rfl
        · rename_i l _ _ _
          rw [Warp.loopEnd_only pc n (w.freeLevel l)]
          rfl

/-- Advancing changes the loop levels and the slots only. -/
theorem Warp.advance_only (w : Warp) : w.advance = { w with loops := w.advance.loops, slots := w.advance.slots } := by
  have h := Warp.loopEnd_only w.frag.pc 5 w
  unfold Warp.advance
  dsimp only
  generalize w.loopEnd w.frag.pc 5 = r at h ⊢
  obtain ⟨v, a⟩ := r
  dsimp only at h ⊢
  rw [h]
  rfl

/-- Advancing leaves the slots as they were but for the program counter of the issuing fragment. -/
theorem Warp.advance_slots (w : Warp) :
    w.advance.slots = w.slots.set w.cur { w.slots[w.cur] with frag := { w.frag with pc := w.advance.frag.pc } } := by
  have h := Warp.loopEnd_only w.frag.pc 5 w
  unfold Warp.advance
  dsimp only
  generalize w.loopEnd w.frag.pc 5 = r at h ⊢
  obtain ⟨v, a⟩ := r
  dsimp only at h ⊢
  rw [h]
  simp [Warp.setFrag, Warp.frag]

/-- Outside the end word of every live level, the fragment continues at its sequential successor and the levels stand. -/
theorem Warp.advance_plain (w : Warp) (h : ∀ l : Fin 4, w.loops[l].live = true → w.loops[l].le ≠ w.frag.pc) :
    w.advance = w.setFrag fun f => { f with pc := nextPc f.pc } := by
  have hl : w.loopEnd w.frag.pc 5 = (w, nextPc w.frag.pc) := by
    unfold Warp.loopEnd
    split
    · rfl
    · rename_i l _
      have : (!(w.ownsLevel l w.frag.mask && w.loops[l].le == w.frag.pc)) = true := by
        simp only [Warp.ownsLevel, Bool.not_eq_true', Bool.and_eq_false_iff]
        by_cases hv : w.loops[l].live = true
        · exact .inr (by simpa using h l hv)
        · exact .inl (.inl (by simpa using hv))
      rw [if_pos this]
  unfold Warp.advance
  rw [hl]
  simp [Warp.setFrag, Warp.frag]

end Sys2Proof.Machine
end

