-- ==== Sys2Proof/Laws/Memory.lean ====
section
/-!
SUPPORT. The laws of memory: every operation keeps the canonical form, and a byte written is read back while every other byte stays.
-/

namespace Sys2Proof.Machine

/-- A canonical list from a bound is one from every lower bound. -/
theorem Memory.wfFrom_lower {l : List Host.Cell} {a : Nat} {lo : Option Nat} (h : Memory.wfFrom (some a) l = true)
    (hlo : ∀ x, lo = some x → x < a) : Memory.wfFrom lo l = true := by
  cases l with
  | nil => rfl
  | cons c rest =>
    simp only [Memory.wfFrom, Bool.and_eq_true, decide_eq_true_eq] at h ⊢
    refine ⟨⟨?_, h.1.2⟩, h.2⟩
    cases lo with
    | none => rfl
    | some x => simpa using Nat.lt_trans (hlo x rfl) h.1.1

/-- An address at or below the bound of a canonical list is not listed. -/
theorem Memory.lookup_below {l : List Host.Cell} {a : Nat} (h : Memory.wfFrom (some a) l = true) {x : Nat} (hx : x ≤ a) :
    Memory.lookup l x = Memory.unlisted := by
  induction l generalizing a with
  | nil => rfl
  | cons c rest ih =>
    simp only [Memory.wfFrom, Bool.and_eq_true, decide_eq_true_eq] at h
    have hne : c.1 ≠ x := by omega
    simp only [Memory.lookup, if_neg hne]
    exact ih h.2 (by omega)

/-- An address above a bound may begin a canonical list. -/
theorem Memory.wfFrom_single {lo : Option Nat} {a : Nat} (h : ∀ x, lo = some x → x < a) : Memory.wfFrom lo [(a, 1#8)] = true := by
  cases lo with
  | none => rfl
  | some x => simpa [Memory.wfFrom] using h x rfl

/-- Insertion above the bound keeps the canonical form. -/
theorem Memory.insert_wf {l : List Host.Cell} {lo : Option Nat} (h : Memory.wfFrom lo l = true) (a : Nat) (b : Byte)
    (ha : ∀ x, lo = some x → x < a) : Memory.wfFrom lo (Memory.insert l a b) = true := by
  have first := Memory.wfFrom_single ha
  clear ha
  induction l generalizing lo with
  | nil =>
    unfold Memory.insert
    split
    · rfl
    · rename_i hb
      simp only [Memory.wfFrom, Bool.and_eq_true] at first ⊢
      exact ⟨⟨first.1.1, by simpa [Memory.unlisted] using hb⟩, trivial⟩
  | cons c rest ih =>
    obtain ⟨x, c⟩ := c
    have hc := h
    simp only [Memory.wfFrom, Bool.and_eq_true] at h
    obtain ⟨⟨h1, h2⟩, h3⟩ := h
    unfold Memory.insert
    split
    · rename_i hlt
      split
      · exact hc
      · rename_i hb
        simp only [Memory.wfFrom, Bool.and_eq_true, decide_eq_true_eq] at first ⊢
        exact ⟨⟨first.1.1, by simpa [Memory.unlisted] using hb⟩, ⟨hlt, h2⟩, h3⟩
    · split
      · rename_i heq
        subst heq
        split
        · refine Memory.wfFrom_lower h3 fun y e => ?_
          subst e
          simpa using h1
        · rename_i hb
          simp only [Memory.wfFrom, Bool.and_eq_true]
          exact ⟨⟨h1, by simpa [Memory.unlisted] using hb⟩, h3⟩
      · simp only [Memory.wfFrom, Bool.and_eq_true]
        have hxa : x < a := by omega
        exact ⟨⟨h1, h2⟩, ih h3 (Memory.wfFrom_single fun y e => by injection e; omega)⟩

/-- A read after an insertion into a canonical list. -/
theorem Memory.lookup_insert {l : List Host.Cell} {lo : Option Nat} (h : Memory.wfFrom lo l = true) (a : Nat) (b : Byte) (x : Nat) :
    Memory.lookup (Memory.insert l a b) x = if x = a then b else Memory.lookup l x := by
  induction l generalizing lo with
  | nil =>
    unfold Memory.insert
    split
    · rename_i hb; simp [Memory.lookup, hb]
    · simp [Memory.lookup, eq_comm]
  | cons c rest ih =>
    obtain ⟨y, c⟩ := c
    simp only [Memory.wfFrom, Bool.and_eq_true] at h
    obtain ⟨⟨-, -⟩, h3⟩ := h
    unfold Memory.insert
    split
    · rename_i hlt
      split
      · rename_i hb
        by_cases hx : x = a
        · subst hx
          have hne : y ≠ x := by omega
          simp only [Memory.lookup, if_neg hne, if_true, hb]
          exact Memory.lookup_below h3 (by omega)
        · simp [hx]
      · simp only [Memory.lookup, eq_comm (a := a)]
    · split
      · rename_i heq
        subst heq
        by_cases hx : x = a
        · subst hx
          split
          · rename_i hb
            rw [if_pos rfl, hb]
            exact Memory.lookup_below h3 (Nat.le_refl _)
          · simp [Memory.lookup]
        · split <;> simp [Memory.lookup, Ne.symm hx]
      · rename_i hlt hne
        simp only [Memory.lookup]
        rw [ih h3]
        by_cases hy : y = x
        · subst hy; simp [Ne.symm hne]
        · simp [hy]

/-- Cells left out of a canonical list leave a canonical list. -/
theorem Memory.filter_wf (p : Host.Cell → Bool) {l : List Host.Cell} {lo : Option Nat} (h : Memory.wfFrom lo l = true) :
    Memory.wfFrom lo (l.filter p) = true := by
  induction l generalizing lo with
  | nil => rfl
  | cons c rest ih =>
    have hc := h
    simp only [Memory.wfFrom, Bool.and_eq_true] at h
    rw [List.filter_cons]
    split
    · simp only [Memory.wfFrom, Bool.and_eq_true]
      exact ⟨h.1, ih h.2⟩
    · refine ih (Memory.wfFrom_lower h.2 ?_)
      intro x hx
      subst hx
      simpa using h.1.1

/-- A write of one byte keeps the canonical form. -/
theorem Memory.write_wf {m : Memory} (h : m.wf = true) (a : Nat) (b : Byte) : (m.write a b).wf = true :=
  Memory.insert_wf h a b (fun _ e => by cases e)

/-- A read after a write of one byte. -/
theorem Memory.read_write {m : Memory} (h : m.wf = true) (a : Nat) (b : Byte) (x : Nat) :
    (m.write a b).read x = if x = a then b else m.read x :=
  Memory.lookup_insert h a b x

/-- A write of several bytes keeps the canonical form. -/
theorem Memory.writeBytes_wf {m : Memory} (h : m.wf = true) (a : Nat) (l : List Byte) : (m.writeBytes a l).wf = true := by
  induction l generalizing m a with
  | nil => exact h
  | cons b rest ih => exact ih (Memory.write_wf h a b) (a + 1)

/-- An empty memory is canonical. -/
theorem Memory.empty_wf : (⟨[]⟩ : Memory).wf = true := rfl

/-- What every element's step keeps, a fold keeps. -/
theorem foldl_keeps {σ α : Type} (P : σ → Prop) (f : σ → α → σ) (h : ∀ s a, P s → P (f s a)) (l : List α) {s : σ} (hs : P s) :
    P (l.foldl f s) := by
  induction l generalizing s with
  | nil => exact hs
  | cons a rest ih => exact ih (h s a hs)

/-! ### The operations of the machine that write memory -/

/-- A verification that passes is one whose check value is that of the sector's bytes (R93). -/
theorem State.verifies_iff (s : State) (sec : Nat) : s.verifies sec = true ↔ s.checkValue sec = s.madeCheck sec := by
  unfold State.verifies State.checkValue
  by_cases h : s.fails sec = true
  · simp only [h, Bool.not_true, Bool.false_eq_true, false_iff, if_true]
    intro he
    have h0 := congrArg (fun x : Word => (s.madeCheck sec ^^^ x).getLsbD 0) he
    simp at h0
  · simp [h]

@[simp] theorem State.hitSaves_mem (s : State) (ha : Nat) : (s.hitSaves ha).mem = s.mem := rfl
@[simp] theorem State.patchUndo_mem (s : State) (ha : Nat) (b : List Byte) : (s.patchUndo ha b).mem = s.mem := rfl
@[simp] theorem State.logLine_mem (s : State) (c : CoreId) (ctx ha : Nat) : (s.logLine c ctx ha).mem = s.mem := rfl
@[simp] theorem State.setMark_mem (s : State) (sec : Nat) (m : Option Mark) : (s.setMark sec m).mem = s.mem := rfl

/-- A verification leaves the bytes of memory alone. -/
@[simp] theorem State.verify_mem (s : State) (sec : Nat) : (s.verify sec).mem = s.mem := by unfold State.verify; split <;> rfl

@[simp] theorem State.mergeSector_mem (s : State) (sec : Nat) : (s.mergeSector sec).mem = s.mem := by
  unfold State.mergeSector
  split
  · rfl
  · exact State.verify_mem s sec

@[simp] theorem State.newCheck_mem (s : State) (sec : Nat) : (s.newCheck sec).mem = s.mem := by unfold State.newCheck; split <;> rfl

/-- So does a line that leaves L2. -/
@[simp] theorem State.evictLine_mem (s : State) (l : L2Line) : (s.evictLine l).mem = s.mem := by
  unfold State.evictLine
  exact foldl_keeps (fun t : State => t.mem = s.mem) _ (fun t sec h => (State.mergeSector_mem t sec).trans h) _
    (foldl_keeps (fun t : State => t.mem = s.mem) _ (fun t sec h => (State.newCheck_mem t sec).trans h) _ rfl)

@[simp] theorem State.setLine_mem (s : State) (ctx ha : Nat) (f : L2Line → L2Line) : (s.setLine ctx ha f).mem = s.mem := rfl

@[simp] theorem State.leaveBank_mem (s : State) (l : L2Line) (far : Bool) : (s.leaveBank l far).mem = s.mem := by
  unfold State.leaveBank
  dsimp only
  split
  · exact State.evictLine_mem s l
  · split
    · rfl
    · split
      · split
        · rw [State.setLine_mem]; exact State.evictLine_mem _ _
        · exact State.evictLine_mem _ _
      · exact State.evictLine_mem _ _

@[simp] theorem State.makeRoom_mem (s : State) (ha way : Nat) : (s.makeRoom ha way).mem = s.mem := by
  unfold State.makeRoom
  dsimp only
  generalize (if (s.l2.filter fun x => !x.far && bankOf x.ha == bankOf ha).length < 1024 then []
    else (s.l2.filter fun x => !x.far && bankOf x.ha == bankOf ha).filter fun x => x.way == way) = held
  split
  · rfl
  · split
    · rfl
    · exact State.leaveBank_mem _ _ _

/-- The allocation of a line, which may make another leave, leaves the bytes of memory alone. -/
@[simp] theorem State.l2Alloc_mem (s : State) (ctx ha : Nat) (dirty : Bool) (filled written : Nat) :
    (s.l2Alloc ctx ha dirty filled written).mem = s.mem := by
  unfold State.l2Alloc
  split
  · rfl
  · exact State.makeRoom_mem _ _ _

/-- A write at a home changes memory by its bytes where the home takes the write, and not at all where it refuses it. -/
theorem State.homeStore_mem (s : State) (log : Option CoreId) (ctx ha : Nat) (bytes : List Byte) :
    (s.homeStore log ctx ha bytes).mem = if s.storeCode ctx ha = 0 then s.mem.writeBytes ha bytes else s.mem := by
  unfold State.homeStore
  by_cases h : s.storeCode ctx ha = 0
  · rw [if_neg (by simp [h]), if_pos h]
    have hm : (match log with
        | some core => if isDram ha then s.logLine core ctx ha else s
        | none => s.patchUndo ha bytes).mem = s.mem := by
      cases log with
      | none => rfl
      | some c => dsimp only; split <;> rfl
    generalize (match log with
        | some core => if isDram ha then s.logLine core ctx ha else s
        | none => s.patchUndo ha bytes) = u at hm ⊢
    dsimp only
    repeat' split
    all_goals simp [hm]
  · rw [if_pos (by simpa using h), if_neg h]

/-- A write at a home keeps the canonical form. -/
theorem State.homeStore_wf {s : State} (h : s.mem.wf = true) (log : Option CoreId) (ctx ha : Nat) (bytes : List Byte) :
    (s.homeStore log ctx ha bytes).mem.wf = true := by
  rw [State.homeStore_mem]
  split
  · exact Memory.writeBytes_wf h ha bytes
  · exact h

/-- A fill leaves the bytes of memory alone. -/
@[simp] theorem State.sectorFill_mem (s : State) (ctx ha n : Nat) : (s.sectorFill ctx ha n).mem = s.mem := by
  unfold State.sectorFill
  dsimp only
  split
  · rfl
  · split
    · split
      · rfl
      · exact (State.setLine_mem _ _ _ _).trans (State.verify_mem _ _)
    · split
      · rfl
      · rw [State.l2Alloc_mem, State.verify_mem]

/-- Ordering a unit's writes after the accepted ones leaves the bytes of memory alone. -/
@[simp] theorem State.afterAccepted_mem (s : State) (undone : Bool) (writes : List (Nat × List Byte)) :
    (s.afterAccepted undone writes).mem = s.mem := by
  unfold State.afterAccepted
  split
  · rfl
  · exact foldl_keeps (fun t : State => t.mem = s.mem) (fun t p => t.patchAccepted undone p.1 p.2) (fun _ _ h => h) writes rfl

theorem State.setAccessed_wf {s : State} (h : s.mem.wf = true) (ctx pteHa : Nat) (write : Bool) : (s.setAccessed ctx pteHa write).mem.wf = true := by
  unfold State.setAccessed
  extract_lets b b'
  split
  · exact h
  · rw [State.afterAccepted_mem]
    exact State.homeStore_wf h _ _ _ _

/-- A demand walk keeps the canonical form. -/
theorem State.walked_wf {s : State} (h : s.mem.wf = true) (ctx va : Nat) (l : Leaf) (write : Bool) : (s.walked ctx va l write).mem.wf = true := by
  unfold State.walked
  refine foldl_keeps (fun s : State => s.mem.wf = true) _ (fun s ha hs => State.setAccessed_wf hs _ _ _) _ (State.setAccessed_wf ?_ _ _ _)
  exact foldl_keeps (fun s : State => s.mem.wf = true) _ (fun s ha hs => by rw [State.sectorFill_mem]; exact hs) _ h

/-- Right after reset memory stands in its canonical form. -/
theorem State.reset_wf : State.reset.mem.wf = true := rfl

end Sys2Proof.Machine
end

