-- ==== Sys2Proof/Laws/Canonical.lean ====
section
/-!
SUPPORT. The shared operations that write memory keep its canonical form: writes of devices, frames and grids, checkpoints and
rollback, and taking an exception.
-/

namespace Sys2Proof.Machine

/-- What an operation that leaves memory alone keeps. -/
theorem State.wf_of_mem {s t : State} (h : s.mem.wf = true) (e : t.mem = s.mem) : t.mem.wf = true := e ▸ h

@[simp] theorem State.setCtx_mem' (s : State) (id : Nat) (f : Ctx → Ctx) : (s.setCtx id f).mem = s.mem := rfl
@[simp] theorem State.send_mem' (s : State) (m : OutMsg) : (s.send m).mem = s.mem := rfl

/-- An MSI-X message leaves memory alone. -/
theorem State.msix_mem (s : State) (vf v : Nat) : (s.msix vf v).mem = s.mem := by
  unfold State.msix
  split
  · rfl
  · dsimp only
    split <;> rfl

/-- A queue-0 event leaves memory alone. -/
theorem State.queue0Event_mem (s : State) (vf code detail : Nat) : (s.queue0Event vf code detail).mem = s.mem := by
  unfold State.queue0Event
  split
  · rfl
  · exact State.msix_mem _ _ _

theorem State.unitWrite_wf {s : State} (h : s.mem.wf = true) (ctx va : Nat) (b : List Byte) (wb : Bool) :
    (s.unitWrite ctx va b wb).1.mem.wf = true := by
  unfold State.unitWrite
  split
  · exact h
  · dsimp only
    rw [State.afterAccepted_mem]
    exact foldl_keeps (fun s : State => s.mem.wf = true) _ (fun s p hs => State.homeStore_wf (State.walked_wf hs _ _ _ _) none ctx _ _) _ h

theorem State.reportWrite_wf {s : State} (h : s.mem.wf = true) (vf q ctx va : Nat) (b : List Byte) :
    (s.reportWrite vf q ctx va b).mem.wf = true := by
  unfold State.reportWrite
  dsimp only
  split
  · exact State.unitWrite_wf h ctx va b _
  · rw [State.queue0Event_mem]; exact h

theorem State.setGrid_wf {s : State} (h : s.mem.wf = true) (ctx id : Nat) (f : Grid → Grid) : (s.setGrid ctx id f).mem.wf = true := by
  unfold State.setGrid
  split
  · exact h
  · exact foldl_keeps (fun s : State => s.mem.wf = true) _ (fun s p hs => State.unitWrite_wf hs _ _ _ _) _ h

theorem State.writeLive_wf {s : State} (h : s.mem.wf = true) (ctx header : Nat) : (s.writeLive ctx header).mem.wf = true :=
  State.unitWrite_wf h _ _ _ _

/-! ### Retirement, termination, kills (R264 to R269) -/

theorem State.gridRetire_wf {s : State} (h : s.mem.wf = true) (g : Grid) : (s.gridRetire g).mem.wf = true := by
  unfold State.gridRetire
  extract_lets status code s1 order s2 note s3 s4 s5 s6 s7
  have h2 : s2.mem.wf = true := State.setGrid_wf h _ _ _
  clear_value s2
  have h3 : s3.mem.wf = true := by
    unfold s3
    split
    · exact h2
    · dsimp only
      split <;> exact State.setGrid_wf h2 _ _ _
  have h4 : s4.mem.wf = true := h3
  clear_value s4
  have h5 : s5.mem.wf = true := by
    unfold s5
    split
    · exact State.unitWrite_wf h4 _ _ _ _
    · exact h4
  clear_value s5
  have h6 : s6.mem.wf = true := by
    unfold s6
    split
    · split
      · exact h5
      · exact State.reportWrite_wf h5 _ _ _ _ _
    · exact h5
  exact State.writeLive_wf (s := s7) h6 _ _

theorem State.retireGrids_wf {s : State} (h : s.mem.wf = true) (n : Nat) : (State.retireGrids n s).mem.wf = true := by
  induction n generalizing s with
  | zero => exact h
  | succ n ih =>
    unfold State.retireGrids
    split
    · exact h
    · exact ih (State.gridRetire_wf h _)

@[simp] theorem State.roomChanged_mem (s : State) (core : CoreId) : (s.roomChanged core).mem = s.mem := by
  unfold State.roomChanged
  split <;> rfl

@[simp] theorem State.teamRetire_mem (s : State) (t : Team) : (s.teamRetire t).mem = s.mem := by
  unfold State.teamRetire
  exact State.roomChanged_mem _ _

theorem State.l1WriteBackAll_wf {s : State} (h : s.mem.wf = true) (p : L1Sector → Bool) : (s.l1WriteBackAll p).mem.wf = true := by
  refine foldl_keeps (fun s : State => s.mem.wf = true) _ (fun s x hs => ?_) _ h
  unfold State.l1WriteBack
  split
  · exact hs
  · exact State.homeStore_wf hs _ _ _ _

theorem State.checkpoint_wf {s : State} (h : s.mem.wf = true) (ctx : Nat) : (s.checkpoint ctx).mem.wf = true :=
  State.l1WriteBackAll_wf h _

theorem State.settle_wf {s : State} (h : s.mem.wf = true) : s.settle.mem.wf = true := by
  unfold State.settle
  dsimp only
  refine foldl_keeps (fun s : State => s.mem.wf = true) _ (fun s ctx hs => ?_) _ (State.retireGrids_wf ?_ _)
  · rw [State.setCtx_mem']
    exact State.checkpoint_wf hs ctx
  refine foldl_keeps (fun s : State => s.mem.wf = true) _ (fun s g hs => State.setGrid_wf ?_ _ _ _) _ h
  exact foldl_keeps (fun s : State => s.mem.wf = true) _ (fun s t hs => by rw [State.teamRetire_mem]; exact hs) _ hs

theorem State.joinWaiter_wf {s : State} (h : s.mem.wf = true) (ctx id : Nat) : (s.joinWaiter ctx id).mem.wf = true :=
  State.setGrid_wf h _ _ _

theorem State.stopGrid_wf {s : State} (h : s.mem.wf = true) (ctx id : Nat) : (s.stopGrid ctx id).mem.wf = true :=
  State.setGrid_wf (State.joinWaiter_wf (s := s.mapWarps _ _) h _ _) _ _ _

theorem State.killGrids_wf {s : State} (h : s.mem.wf = true) (ctx n : Nat) (l : List Nat) : (s.killGrids ctx n l).mem.wf = true := by
  induction n generalizing s l with
  | zero => cases l <;> exact h
  | succ n ih =>
    cases l with
    | nil => exact h
    | cons id more =>
      unfold State.killGrids
      refine ih ?_ _
      split
      · exact h
      · split
        · exact h
        · exact State.stopGrid_wf (State.setGrid_wf h _ _ _) _ _

theorem State.terminate_wf {s : State} (h : s.mem.wf = true) (ctx id : Nat) (code : Code) (rec' : Nat) (lead : Option WarpId := none) :
    (s.terminate ctx id code rec' lead).mem.wf = true := by
  unfold State.terminate
  split
  · exact h
  · refine State.settle_wf (State.killGrids_wf ?_ _ _ _)
    split
    · split
      · exact State.setGrid_wf h _ _ _
      · exact h
    · exact State.stopGrid_wf (State.setGrid_wf (s := s.endCycle) h _ _ _) _ _

/-! ### Taking an exception (R324 to R331) -/

theorem State.faultRecord_wf {s : State} (h : s.mem.wf = true) (ctx : Nat) (r : List Byte) : (s.faultRecord ctx r).1.mem.wf = true := by
  unfold State.faultRecord
  split
  · exact h
  · extract_lets lost
    have hl : (lost s).mem.wf = true := by
      unfold lost
      split
      · exact h
      · exact State.unitWrite_wf h _ _ _ _
    split
    · rw [State.msix_mem]; exact h
    · dsimp only
      split
      · rw [State.msix_mem]; exact hl
      · split
        · rw [State.msix_mem]; exact hl
        · rw [State.msix_mem]; exact State.unitWrite_wf (State.unitWrite_wf h _ _ _ _) _ _ _ _

theorem State.recordStop_wf {s : State} (h : s.mem.wf = true) (f : FaultInfo) (pc : Addr) : (s.recordStop f pc).1.mem.wf = true := by
  unfold State.recordStop
  exact State.faultRecord_wf (s := { s with w := { s.w with stopped := true, recordStands := true, hold := Vector.replicate 2 none }, faulted := s.w.id :: s.faulted }) h _ _

theorem State.stopWarpAt_wf {s : State} (h : s.mem.wf = true) (f : FaultInfo) (pc : Addr) : (s.stopWarpAt f pc).mem.wf = true :=
  State.terminate_wf (State.recordStop_wf h f pc) _ _ _ _ _

theorem State.raise_wf {s : State} (h : s.mem.wf = true) (f : FaultInfo) : (s.raise f).mem.wf = true := by
  unfold State.raise
  extract_lets addr
  clear_value addr
  split
  · rw [State.setW_mem]; exact h
  · exact State.stopWarpAt_wf h f _

theorem State.raiseCode_wf {s : State} (h : s.mem.wf = true) (code : Code) : (s.raiseCode code).mem.wf = true := State.raise_wf h _

theorem State.deliverOpFault_wf {s : State} (h : s.mem.wf = true) : s.deliverOpFault.mem.wf = true := by
  unfold State.deliverOpFault
  split
  · exact h
  · extract_lets slot live s1 mask info addr
    have h1 : s1.mem.wf = true := by
      unfold s1
      rw [State.setW_mem]; exact h
    clear_value s1 addr
    split
    · exact h
    · split
      · rw [State.setW_mem]; exact h1
      · exact State.stopWarpAt_wf h1 _ _

theorem State.returnFromHandler_wf {s : State} (h : s.mem.wf = true) : s.returnFromHandler.mem.wf = true := by
  unfold State.returnFromHandler
  split
  · exact h
  · rename_i x _
    have hs : (s.setW fun w => w.leaveHandler x).mem.wf = true := by rw [State.setW_mem]; exact h
    generalize (s.setW fun w => w.leaveHandler x) = u at hs ⊢
    refine State.deliverOpFault_wf ?_
    split <;> exact hs

/-- Taking an exception: the handler is entered for route H in user mode with a handler (R324, R328), and otherwise the warp stops. -/
theorem State.raise_cases (s : State) (f : FaultInfo) :
    (routeH f.code = true ∧ s.w.super = false ∧ s.handlerAddr s.w.id.ctx ≠ 0 ∧
      s.raise f = s.setW fun w => w.enterHandler (s.handlerAddr s.w.id.ctx) f none false) ∨
    ((routeH f.code = false ∨ s.w.super = true ∨ s.handlerAddr s.w.id.ctx = 0) ∧ s.raise f = s.stopWarp f) := by
  unfold State.raise
  cases h1 : routeH f.code <;> cases h2 : s.w.super <;> by_cases h3 : s.handlerAddr s.w.id.ctx = 0 <;> simp [h3]

/-! ### Rollback (R336) -/

theorem State.undoLine_wf {s : State} (h : s.mem.wf = true) (u : UndoLine) : (s.undoLine u).mem.wf = true := Memory.writeBytes_wf h _ _

/-! ### The host link (R93) -/

theorem State.linkWrite_wf {s : State} (h : s.mem.wf = true) (ha : Nat) (b : List Byte) : (s.linkWrite ha b).mem.wf = true := by
  have hb : (s.beforeLinkWrite ha).mem.wf = true := by
    unfold State.beforeLinkWrite
    split
    · exact h
    · split
      · exact State.checkpoint_wf h _
      · exact h
  unfold State.linkWrite
  dsimp only
  split <;> exact Memory.writeBytes_wf hb _ _

end Sys2Proof.Machine
end

