-- ==== Sys2Proof/Laws/Registers.lean ====
section
/-!
SUPPORT. What reads of registers give after writes (R11, R25, R31, R117, R119), and the cases of the checks that precede an
instruction (R127).
-/

namespace Sys2Proof.Machine

/-! ### Scalars -/

/-- Two scalar names of one wave are one register only if they are one name. -/
theorem Warp.scalarIx_inj (w : Warp) (r q : Reg) (h : w.scalarIx r = w.scalarIx q) : r = q := by
  unfold Warp.scalarIx at h
  split at h
  · simp [Fin.ofNat, Fin.ext_iff] at h
    apply BitVec.eq_of_toNat_eq
    have := r.isLt; have := q.isLt; have := w.cur.isLt
    omega
  · apply BitVec.eq_of_toNat_eq
    simpa [Fin.ext_iff] using h

@[simp] theorem Warp.readS_zero (w : Warp) : w.readS 0#7 = 0#32 := rfl

@[simp] theorem Warp.writeS_zero (w : Warp) (v : Word) : w.writeS 0#7 v = w := rfl

/-- A read after a write: s0 reads as zero, the register written gives the value, every other register its own. -/
theorem Warp.readS_writeS (w : Warp) (r q : Reg) (v : Word) :
    (w.writeS r v).readS q = if q = 0#7 then 0#32 else if q = r then v else w.readS q := by
  by_cases hq : q = 0#7
  · subst hq; rfl
  · by_cases hr : r = 0#7
    · subst hr; simp [hq]
    · have hs : (w.writeS r v).readS q = (w.scalars.set (w.scalarIx r) v)[w.scalarIx q] := by
        unfold Warp.readS Warp.writeS
        rw [if_neg hq, if_neg hr]
        rfl
      rw [hs, if_neg hq]
      by_cases h : q = r
      · subst h; simp
      · have hne : (w.scalarIx r).val ≠ (w.scalarIx q).val := fun e => h (w.scalarIx_inj r q (Fin.ext e)).symm
        rw [if_neg h]
        simp [hne, Warp.readS, hq]

@[simp] theorem Warp.readS_setFlags (w : Warp) (f : Word) (q : Reg) : (w.setFlags f).readS q = w.readS q := rfl

@[simp] theorem Warp.readS_advance (w : Warp) (q : Reg) : w.advance.readS q = w.readS q := by
  rw [Warp.advance_only]
  rfl

/-- A scalar write changes the scalar registers, and the record of which registers have undo entries (R334), only. -/
theorem Warp.writeS_only (w : Warp) (r : Reg) (v : Word) :
    w.writeS r v = { w with scalars := (w.writeS r v).scalars, logged := (w.writeS r v).logged } := by
  unfold Warp.writeS
  split <;> rfl

/-! ### Vectors -/

/-- A read after a write of a register of the block: the lanes of the mask give the value, the others their own. -/
theorem Warp.vectors_writeBlock (w : Warp) (ix jx : Fin 256) (m : Mask) (v : Lanes) (t : Fin 32) :
    ((w.writeBlock ix m v).vectors[jx])[t] = if jx = ix ∧ m.getLsbD t.val = true then v[t] else (w.vectors[jx])[t] := by
  unfold Warp.writeBlock
  simp only [Fin.getElem_fin, Vector.getElem_set]
  by_cases h : ix.val = jx.val
  · have hx : jx = ix := Fin.ext h.symm
    subst hx
    cases hm : m.getLsbD t.val <;> rw [BitVec.getLsbD_eq_getElem] at hm <;> simp [hm]
  · have hx : jx ≠ ix := fun e => h (congrArg Fin.val e).symm
    simp [h, hx]

/-- A read after a write under the window. -/
theorem Warp.readV_writeV (w : Warp) (n k : Nat) (m : Mask) (v : Lanes) (t : Fin 32) :
    ((w.writeV n m v).readV k)[t] = if w.vectorIx k = w.vectorIx n ∧ m.getLsbD t.val = true then v[t] else (w.readV k)[t] :=
  w.vectors_writeBlock _ _ m v t

@[simp] theorem Warp.readV_setFlags (w : Warp) (f : Word) (k : Nat) : (w.setFlags f).readV k = w.readV k := rfl

@[simp] theorem Warp.readV_advance (w : Warp) (k : Nat) : w.advance.readV k = w.readV k := by
  rw [Warp.advance_only]
  rfl

/-- Writing one register lane by lane changes the vector registers, the record of the undo entries and the flags only. -/
theorem Warp.lanewise_only (w : Warp) (d : Nat) (f : Fin 32 → Word × Word) :
    w.lanewise d f = { w with vectors := (w.lanewise d f).vectors, logged := (w.lanewise d f).logged, nflags := (w.lanewise d f).nflags } := rfl

/-! ### Predicates -/

/-- A read after a write of a predicate: the bits of the mask give the value, the others their own. -/
theorem Warp.readP_writeP (w : Warp) (p q : Pred) (m v : Mask) :
    (w.writeP p m v).readP q = if q = p then (v &&& m) ||| (w.readP p &&& ~~~m) else w.readP q := by
  unfold Warp.writeP Warp.readP
  by_cases h : q = p
  · subst h; simp
  · have hne : p.toFin.val ≠ q.toFin.val := fun e => h (BitVec.eq_of_toNat_eq e.symm)
    rw [if_neg h]
    simp [show p.toNat ≠ q.toNat from hne]

/-- Writing a predicate from its lanes changes the predicates, the record of the undo entries and the flags only. -/
theorem Warp.predicate_only (w : Warp) (p : Pred) (f : Fin 32 → Bool × Word) :
    w.predicate p f = { w with preds := (w.predicate p f).preds, logged := (w.predicate p f).logged, nflags := (w.predicate p f).nflags } := rfl

/-! ### The checks before an instruction (R127) -/

/-- An instruction that passes the checks acts as its body says. -/
theorem State.checked_none {s : State} {i : Instr} {b : State → State} (h : s.precheck i = none) : s.checked i b = b s := by
  simp [State.checked, h]

/-- An instruction that does not pass them raises the code for the whole fragment. -/
theorem State.checked_some {s : State} {i : Instr} {b : State → State} {c : Code} (h : s.precheck i = some c) :
    s.checked i b = s.raiseCode c := by
  simp [State.checked, h]

/-- A chain of ranks answers none where no rank applies. -/
theorem ranks_none (a b c d e f g h k : Bool) :
    (if !a || b then some (0x01 : Code) else if c || d then some 0x02 else if e then some 0x03 else if f then some 0x05
      else if g || h then some 0x04 else if k then some 0x14 else none) = none ↔
    a = true ∧ b = false ∧ c = false ∧ d = false ∧ e = false ∧ f = false ∧ g = false ∧ h = false ∧ k = false := by
  cases a <;> cases b <;> cases c <;> cases d <;> cases e <;> cases f <;> cases g <;> cases h <;> cases k <;> simp

/-- Everything that passing the checks says. -/
theorem State.precheck_none {s : State} {i : Instr} : s.precheck i = none ↔
    i.wellFormed = true ∧ (s.w.super && !supervisorMay i) = false ∧
    (match featureOf i with | some f => s.masked f | none => false) = false ∧ (s.w.legacy && legacyForbidden i) = false ∧
    (privileged i && !s.w.super) = false ∧ outsideBlock s.w i = false ∧ (codeTargets s.pc i).any reedSlot = false ∧
    (match registerTarget s.w i with | some a => badTarget a | none => false) = false ∧ s.w.enclosedEnd = false := by
  exact ranks_none _ _ _ _ _ _ _ _ _

/-- What `finish` leaves: the fields of the state other than the current warp stand. -/
theorem State.finish_only (s : State) (f : Warp → Warp) : s.finish f = { s with w := (f s.w).advance } := rfl

end Sys2Proof.Machine
end

