-- ==== Sys2Proof/Tests/Slice0.lean ====
section
/-!
SUPPORT. Tests of the instruction words: ill-formed terms that are refused, a word written out from the spec's tables for every
instruction, one-step results worked out by hand from the rules, and states that meet the hypotheses of the statements about
registers, decoding, faults and issuing.
-/

namespace Sys2Proof.Tests

set_option Elab.async false

open Sys2Proof.Machine
open Sys2Proof.Claims

/-! ### Small states -/

/-- A program of one word on an otherwise empty machine. -/
def base : State := State.reset.loaded 0#32

/-- Registers by number: those of the list, else 0. -/
def scalarBank (l : List (Nat × Word)) : Vector Word 128 := l.foldl (fun b p => b.setIfInBounds p.1 p.2) (Vector.replicate 128 0#32)

/-- Vector registers by number: those of the list, else 0. -/
def vectorBank (l : List (Nat × (Nat → Word))) : Vector Lanes 256 :=
  l.foldl (fun b p => b.setIfInBounds p.1 (Vector.ofFn fun t => p.2 t.val)) (Vector.replicate 256 (Vector.replicate 32 0#32))

/-- The state with these scalars and vectors and this mask of active threads. -/
def withRegs (scalars : List (Nat × Word)) (vectors : List (Nat × (Nat → Word))) (mask : Mask) : State :=
  base.setW fun w => ({ w with scalars := scalarBank scalars, vectors := vectorBank vectors }).setFrag fun f => { f with mask := mask }

/-- The answer is a next state with a property. -/
def nextHas (r : Result) (p : State → Bool) : Bool := match r with
  | .next t => p t
  | _ => false

/-- The scalars that the hand-worked cases read. -/
def handScalars : List (Nat × Word) :=
  [(4, 0x7FFFFFFF#32), (5, 1#32), (6, 0xFFFFFFF9#32), (7, 2#32), (8, 0x80000000#32), (9, 0xFFFFFFFF#32), (12, 0x5678#32)]

/-- After the instruction on the hand-worked scalars, register r holds v and the flags are f. -/
def scalarGives (i : Instr) (r : Reg) (v f : Word) : Bool :=
  nextHas (exec i (withRegs handScalars [] 0xFFFFFFFF#32)) fun t => t.w.readS r == v && t.w.nflags == f

/-- The vectors that the hand-worked cases read: v1 the thread number, v2 and v3 constants, v4 1.0, v5 2^-24, v6 3.0, v7 -9.0, v8 2.0, v9 NaN. -/
def handVectors : List (Nat × (Nat → Word)) :=
  [(1, fun t => BitVec.ofNat 32 t), (2, fun _ => 0x7FFFFFFF#32), (3, fun _ => 0xFFFFFFFF#32), (4, fun _ => 0x3F800000#32),
    (5, fun _ => 0x33800000#32), (6, fun _ => 0x40400000#32), (7, fun _ => 0xC1100000#32), (8, fun _ => 0x40000000#32),
    (9, fun _ => 0x7FC00000#32), (10, fun _ => 0xABCDEF12#32), (13, fun _ => 0x0604#32)]

/-- A state with the hand-worked registers. -/
def hand (mask : Mask) : State := withRegs handScalars handVectors mask

/-- After the instruction on the hand-worked registers, lane t of register r holds v. -/
def laneGives (mask : Mask) (i : Instr) (r : Nat) (t : Fin 32) (v : Word) : Bool :=
  nextHas (exec i (hand mask)) fun u => (u.w.readV r)[t] == v

/-- After the instruction on the hand-worked registers, the flags are f. -/
def flagsAre (i : Instr) (f : Word) : Bool := nextHas (exec i (hand 0xFFFFFFFF#32)) fun u => u.w.nflags == f

/-! ### Ill-formed terms, one for each check (R117, R124) -/

theorem test_ill_formed :
    [Instr.sadd 0 3 4 5 6, .ssub 1 0 5 6 8, .sdiv 0 5 4 4, .smin 2 1 2 3, .smax 3 1 2 3, .srd 4 23, .vadd 0 3 1 2 3, .vsub 1 3 1 2 3,
      .vmad 0 2 1 2 3, .vmin 0 3 1 2 3, .vmax 0 2 1 2 3, .vbfe 0 2 1 2 3, .vpk 0 3 1 2 3, .vupk 0 3 1 2 3, .vvote 4 1 3, .vred 4 1 11,
      .vscan 4 1 15, .vgetid 1 3, .ldgB8 3 0 4 6 8, .ldgB16 3 0 4 6 8, .ldgB32 3 0 4 6 8, .ldgB64 3 0 4 6 8, .ldgB128 3 0 4 6 8,
      .stgB8 3 0 4 6 8, .stgB16 3 0 4 6 8, .stgB32 3 0 4 6 8, .stgB64 3 0 4 6 8, .stgB128 3 0 4 6 8, .lds 3 0 4 6 8, .sts 3 0 4 6 8,
      .ldp 3 0 4 6 8, .stp 3 0 4 6 8, .ldx 3 0 4 6 1 0, .stx 3 0 4 6 1 0, .atomgF32 3 4 6 8, .atomsF32 7 4 6 8, .jmpr 3, .callr 5,
      .loop 4 0, .tfetch 4 126, .mma 1 0 0 4 126 4, .mmag 0 1 0 4 4 126, .mmsp 0 0 0 4 4 123, .drainmx 4 126 4, .cpy 1 0 0 4 4,
      .cpy 0 0 4 126 4, .cpy 0 1 4 4 126, .cpy 0 2 4 4 126, .cpy 0 3 4 127 4, .cpyg 0 2 4 4 4, .cpyg 0 1 4 4 127, .pft 126, .fence 0 1,
      .launch 3 4 5 0, .lxrd 0 9, .mappg 3 1, .pref 2 4].all (fun i => !i.wellFormed) = true := by decide

theorem test_boundaries_are_well_formed :
    [Instr.sadd 0 2 5 5 5, .ssub 1 2 4 6 8, .smin 1 1 2 3, .srd 4 22, .vred 4 1 10, .vgetid 1 2, .atomgF32 6 4 6 8, .loop 4 1, .tfetch 4 125,
      .mma 1 1 0 4 125 125, .mmsp 0 0 0 4 4 122, .cpy 1 3 1 126 4, .cpyg 1 1 1 4 126, .fence 1 0, .lxrd 9 8, .pref 1 4].all Instr.wellFormed
      = true := by decide

/-! ### Every instruction's word, its fields written out bit by bit (R107 to R116, R135, R145, R148, R174, R191, R212) -/

theorem test_decode_scalar_0 :
    decode 0b00000000_1_10_0001111_1000100_1111001#32 = .ok (.sadd 1 2 15 68 121) ∧
    decode 0b00000001_1_11_0101100_1100001_0010110#32 = .ok (.ssub 1 3 44 97 22) ∧
    decode 0b00000010_0_11_0010100_1001001_1111110#32 = .ok (.smul 3 20 73 126) ∧
    decode 0b00000011_1_00_0110001_1100110_0011011#32 = .ok (.sdiv 1 49 102 27) ∧
    decode 0b00000100_000_0011001_1001110_0000011#32 = .ok (.sand 25 78 3) ∧
    decode 0b00000101_000_0110110_1101011_0100000#32 = .ok (.sor 54 107 32) ∧
    decode 0b00000110_000_1010011_0001000_0111101#32 = .ok (.sxor 83 8 61) ∧
    decode 0b00000111_000_1110000_0100101_1011010#32 = .ok (.sandn 112 37 90) := by decide

theorem test_decode_scalar_1 :
    decode 0b00001000_000_0001101_1000010_1110111#32 = .ok (.sshl 13 66 119) ∧
    decode 0b00001001_000_0101010_1011111_0010100#32 = .ok (.sshr 42 95 20) ∧
    decode 0b00001010_000_1000111_1111100_0110001#32 = .ok (.ssra 71 124 49) ∧
    decode 0b00001011_0_01_0011001_1001110_0000011#32 = .ok (.smin 1 25 78 3) ∧
    decode 0b00001100_0_01_0110110_1101011_0100000#32 = .ok (.smax 1 54 107 32) ∧
    decode 0b00001101_110_1010011_0001000_0111101#32 = .ok (.scmp 6 83 8 61) ∧
    decode 0b00001110_000_0111011_1110000_0000000#32 = .ok (.sclz 59 112) ∧
    decode 0b00001111_000_1011000_0001101_0000000#32 = .ok (.spopc 88 13) := by decide

theorem test_decode_scalar_2 :
    decode 0b00010000_000_1110101_0101010_0000000#32 = .ok (.srd 117 42) ∧
    decode 0b00010001_0000001101_0010010_0000000#32 = .ok (.swr 18) := by decide

theorem test_decode_scalar_immediate_0 :
    decode 0b00100000_0101111_1100100_0000011001#32 = .ok (.saddi 47 100 25) ∧
    decode 0b00100001_1001100_0000001_0000110110#32 = .ok (.sandi 76 1 54) ∧
    decode 0b00100010_1101001_0011110_0001010011#32 = .ok (.sori 105 30 83) ∧
    decode 0b00100011_0000110_0111011_0001110000#32 = .ok (.sxori 6 59 112) ∧
    decode 0b00100100_0100011_1011000_00000_01101#32 = .ok (.sshli 35 88 13) ∧
    decode 0b00100101_1000000_1110101_00000_01010#32 = .ok (.sshri 64 117 10) ∧
    decode 0b00100110_1011101_0010010_00000_00111#32 = .ok (.ssrai 93 18 7) ∧
    decode 0b00100111_1111010_0101111_0011100100#32 = .ok (.smuli 122 47 228) := by decide

theorem test_decode_scalar_immediate_1 :
    decode 0b00101000_0010111_1001100_001_0110110#32 = .ok (.scmpi 23 76 1 54) ∧
    decode 0b00101001_0110100_11010100011101001#32 = .ok (.sldi 52 108777) ∧
    decode 0b00101010_1010001_11010100100000110#32 = .ok (.sldhi 81 108806) := by decide

theorem test_decode_vector_0 :
    decode 0b01000000_1_11_1011000_0001101_1000010#32 = .ok (.vadd 1 3 88 13 66) ∧
    decode 0b01000001_1_01_1110101_0101010_1011111#32 = .ok (.vsub 1 1 117 42 95) ∧
    decode 0b01000010_1_01_0010010_1000111_1111100#32 = .ok (.vmul 1 1 18 71 124) ∧
    decode 0b01000011_1_10_0101111_1100100_0011001#32 = .ok (.vmad 1 2 47 100 25) ∧
    decode 0b01000100_1_00_0010111_1001100_0000001#32 = .ok (.vand 1 23 76 1) ∧
    decode 0b01000101_1_00_0110100_1101001_0011110#32 = .ok (.vor 1 52 105 30) ∧
    decode 0b01000110_1_00_1010001_0000110_0111011#32 = .ok (.vxor 1 81 6 59) ∧
    decode 0b01000111_1_00_1101110_0100011_1011000#32 = .ok (.vshl 1 110 35 88) := by decide

theorem test_decode_vector_1 :
    decode 0b01001000_1_00_0001011_1000000_1110101#32 = .ok (.vshr 1 11 64 117) ∧
    decode 0b01001001_1_00_0101000_1011101_0010010#32 = .ok (.vsra 1 40 93 18) ∧
    decode 0b01001010_1_01_1111010_0101111_1100100#32 = .ok (.vmin 1 1 122 47 100) ∧
    decode 0b01001011_1_10_0010111_1001100_0000001#32 = .ok (.vmax 1 2 23 76 1) ∧
    decode 0b01001100_1_00_111_0100_1101001_0011110#32 = .ok (.vcmp 1 7 4 105 30) ∧
    decode 0b01001101_1_00_100_0001_0000110_0111011#32 = .ok (.vcmpn 1 4 1 6 59) ∧
    decode 0b01001110_000_0000100_0111001_000_1110#32 = .ok (.vsel 4 57 14) ∧
    decode 0b01001111_1_10_0001011_1000000_1110101#32 = .ok (.vbfe 1 2 11 64 117) := by decide

theorem test_decode_vector_2 :
    decode 0b01010000_1_00_1110011_0101000_1011101#32 = .ok (.vbfi 1 115 40 93) ∧
    decode 0b01010001_000_1011011_0010000_0000000#32 = .ok (.vpopc 91 16) ∧
    decode 0b01010010_000_1111000_0101101_0000000#32 = .ok (.vclz 120 45) ∧
    decode 0b01010011_1_00_1001010_0000000_1111111#32 = .ok (.vmov 1 74 127) ∧
    decode 0b01010100_1_11_0011100_1010001_0000110#32 = .ok (.vfadd 1 3 28 81 6) ∧
    decode 0b01010101_1_01_0111001_1101110_0100011#32 = .ok (.vfmul 1 1 57 110 35) ∧
    decode 0b01010110_1_01_1010110_0001011_1000000#32 = .ok (.vfma 1 1 86 11 64) ∧
    decode 0b01011111_1_10_1110011_0101000_1011101#32 = .ok (.vfsub 1 2 115 40 93) := by decide

theorem test_decode_vector_3 :
    decode 0b01010111_1_00_1011011_0010000_1000101#32 = .ok (.vfmin 1 91 16 69) ∧
    decode 0b01011000_1_00_1111000_0101101_1100010#32 = .ok (.vfmax 1 120 45 98) ∧
    decode 0b01011001_1_00_101_1010_1111111_0110100#32 = .ok (.vfcmp 1 5 10 127 52) ∧
    decode 0b01011010_000_1111101_0110010_0000_111#32 = .ok (.vxf 125 50 7) ∧
    decode 0b01011011_0_10_1001111_0000100_001_110_1#32 = .ok (.vcvt 2 79 4 1 6 1) ∧
    decode 0b01011100_1_01_0100001_1010110_0001011#32 = .ok (.vpk 1 1 33 86 11) ∧
    decode 0b01011101_1_01_0111110_1110011_0101000#32 = .ok (.vupk 1 1 62 115 40) ∧
    decode 0b01011110_1_10_1011011_0010000_1000101#32 = .ok (.vshfl 1 2 91 16 69) := by decide

theorem test_decode_vector_immediate_0 :
    decode 0b01100000_0001110_1000011_0011111000#32 = .ok (.vaddi 14 67 248) ∧
    decode 0b01100001_0101011_1100000_0100010101#32 = .ok (.vandi 43 96 277) ∧
    decode 0b01100010_1001000_1111101_0100110010#32 = .ok (.vori 72 125 306) ∧
    decode 0b01100011_1100101_0011010_0101001111#32 = .ok (.vxori 101 26 335) ∧
    decode 0b01100100_0000010_0110111_00000_01100#32 = .ok (.vshli 2 55 12) ∧
    decode 0b01100101_0011111_1010100_00000_01001#32 = .ok (.vshri 31 84 9) ∧
    decode 0b01100110_0111100_1110001_00000_00110#32 = .ok (.vsrai 60 113 6) ∧
    decode 0b01100111_1011001_0001110_0111000011#32 = .ok (.vmuli 89 14 451) := by decide

theorem test_decode_vector_immediate_1 :
    decode 0b01101000_110_1011_1100000_1000010101#32 = .ok (.vcmpi 6 11 96 533) ∧
    decode 0b01101001_0010011_11010110111001000#32 = .ok (.vldi 19 110024) ∧
    decode 0b01101010_0110000_11010110111100101#32 = .ok (.vfldi 48 110053) ∧
    decode 0b01101011_1001101_000_0010_00000000_11#32 = .ok (.vvote 77 2 3) ∧
    decode 0b01101100_1101010_0011111_000000_0100#32 = .ok (.vred 106 31 4) ∧
    decode 0b01101101_0000111_0111100_000000_0001#32 = .ok (.vscan 7 60 1) ∧
    decode 0b01101110_0100100_1011001_000_0001110#32 = .ok (.vhadm 36 89 14) ∧
    decode 0b01101111_1000001_0000000_1001110110#32 = .ok (.vgetid 65 630) := by decide

theorem test_decode_memory_0 :
    decode 0b10000000_10_1_1001000_1111101_0110010#32 = .ok (.ldgB8 2 1 72 125 50) ∧
    decode 0b10000001_11_1_1100101_0011010_1001111#32 = .ok (.ldgB16 3 1 101 26 79) ∧
    decode 0b10000010_01_1_0000010_0110111_1101100#32 = .ok (.ldgB32 1 1 2 55 108) ∧
    decode 0b10000011_01_1_0011111_1010100_0001001#32 = .ok (.ldgB64 1 1 31 84 9) ∧
    decode 0b10000100_10_1_0111100_1110001_0100110#32 = .ok (.ldgB128 2 1 60 113 38) ∧
    decode 0b10000101_11_1_1011001_0001110_1000011#32 = .ok (.stgB8 3 1 89 14 67) ∧
    decode 0b10000110_01_1_1110110_0101011_1100000#32 = .ok (.stgB16 1 1 118 43 96) ∧
    decode 0b10000111_01_1_0010011_1001000_1111101#32 = .ok (.stgB32 1 1 19 72 125) := by decide

theorem test_decode_memory_1 :
    decode 0b10001000_10_1_0110000_1100101_0011010#32 = .ok (.stgB64 2 1 48 101 26) ∧
    decode 0b10001001_11_1_1001101_0000010_0110111#32 = .ok (.stgB128 3 1 77 2 55) ∧
    decode 0b10001010_01_1_1101010_0011111_1010100#32 = .ok (.lds 1 1 106 31 84) ∧
    decode 0b10001011_01_1_0000111_0111100_1110001#32 = .ok (.sts 1 1 7 60 113) ∧
    decode 0b10001100_10_1_0100100_1011001_1110_011#32 = .ok (.ldx 2 1 36 89 14 3) ∧
    decode 0b10001101_11_1_1000001_1110110_1011_001#32 = .ok (.stx 3 1 65 118 11 1) ∧
    decode 0b10001110_01_1_1011110_0010011_1001000#32 = .ok (.ldp 1 1 94 19 72) ∧
    decode 0b10001111_01_1_1111011_0110000_1100101#32 = .ok (.stp 1 1 123 48 101) := by decide

theorem test_decode_memory_2 :
    decode 0b10010000_110_1100011_0011000_1001101#32 = .ok (.atomgI32 6 99 24 77) ∧
    decode 0b10010001_011_0000001_0110101_1101010#32 = .ok (.atomgN32 3 1 53 106) ∧
    decode 0b10010010_001_0011101_1010010_0000111#32 = .ok (.atomgF32 1 29 82 7) ∧
    decode 0b10010011_101_0111010_1101111_0100100#32 = .ok (.atomgI64 5 58 111 36) ∧
    decode 0b10010100_010_1010111_0001100_1000001#32 = .ok (.atomgN64 2 87 12 65) ∧
    decode 0b10010101_111_1110100_0101001_1011110#32 = .ok (.atomdI32 7 116 41 94) ∧
    decode 0b10010110_100_0010001_1000110_1111011#32 = .ok (.atomdI64 4 17 70 123) ∧
    decode 0b10010111_001_0101110_1100011_0011000#32 = .ok (.atomyI32 1 46 99 24) := by decide

theorem test_decode_memory_3 :
    decode 0b10011000_110_1001011_0000001_0110101#32 = .ok (.atomyI64 6 75 1 53) ∧
    decode 0b10011001_011_1101000_0011101_1010010#32 = .ok (.atomsI32 3 104 29 82) ∧
    decode 0b10011010_001_0000101_0111010_1101111#32 = .ok (.atomsN32 1 5 58 111) ∧
    decode 0b10011011_101_0100010_1010111_0001100#32 = .ok (.atomsF32 5 34 87 12) ∧
    decode 0b10011100_010_0111111_1110100_1001_110#32 = .ok (.atomxI32 2 63 116 9 6) ∧
    decode 0b10011101_111_1011100_0010001_0110_011#32 = .ok (.atomxI64 7 92 17 6 3) := by decide

theorem test_decode_control_0 :
    decode 0b10100000_000001011011000111000100#32 = .ok (.bra 373188) ∧
    decode 0b10100001_0001_1000010110_1001001011#32 = .ok (.brd 1 534 587) ∧
    decode 0b10100010_1110_01011011001000110011#32 = .ok (.brany 14 373299) ∧
    decode 0b10100011_1011_01011011001001010000#32 = .ok (.brall 11 373328) ∧
    decode 0b10100100_0111000_11011001001101101#32 = .ok (.brz 56 111213) ∧
    decode 0b10100101_1010101_11011001010001010#32 = .ok (.brnz 85 111242) ∧
    decode 0b10100110_0000000000_1110010_0000000#32 = .ok (.jmpr 114) ∧
    decode 0b10100111_000001011011001010001111#32 = .ok (.call 373391) := by decide

theorem test_decode_control_1 :
    decode 0b10101000_0000000000_0101100_0000000#32 = .ok (.callr 44) ∧
    decode 0b10101001_000000000000000000000000#32 = .ok .ret ∧
    decode 0b10101010_1100110_00000_001100011011#32 = .ok (.loop 102 795) ∧
    decode 0b10101011_000000000000000000000000#32 = .ok .lbrk ∧
    decode 0b10101100_000000000000000000000000#32 = .ok .exit ∧
    decode 0b10101101_00000000_1011001100111101#32 = .ok (.trap 45885) ∧
    decode 0b10101110_000000000000000000000000#32 = .ok .nop ∧
    decode 0b10101111_000000000000000000000000#32 = .ok .yield := by decide

theorem test_decode_control_2 :
    decode 0b10110000_000000000000000000000000#32 = .ok .brkpt := by decide

theorem test_decode_matrix_copy_0 :
    decode 0b11000000_000_0110001_00000000000000#32 = .ok (.gang 49) ∧
    decode 0b11000001_00_1_0000011_00000000000000#32 = .ok (.tclaim 1 3) ∧
    decode 0b11000010_00_1_0100000_00000000000000#32 = .ok (.trel 1 32) ∧
    decode 0b11000011_000_0001000_0111101_0000000#32 = .ok (.tfetch 8 61) ∧
    decode 0b11000100_1_1_1_1000100_1111001_0101110#32 = .ok (.mma 1 1 1 68 121 46) ∧
    decode 0b11000101_1_1_1_1100001_0010110_1001011#32 = .ok (.mmag 1 1 1 97 22 75) ∧
    decode 0b11000110_1_1_1_1111110_0110011_1101000#32 = .ok (.mmsp 1 1 1 126 51 104) ∧
    decode 0b11000111_000_1111100_00000000000000#32 = .ok (.accz 124) := by decide

theorem test_decode_matrix_copy_1 :
    decode 0b11001000_000_0011001_1001110_0000011#32 = .ok (.drainmx 25 78 3) ∧
    decode 0b11001001_000_0110110_1101011_0100000#32 = .ok (.drainv 54 107 32) ∧
    decode 0b11001010_000000000000000000000000#32 = .ok .tcommit ∧
    decode 0b11001011_1_01_1011010_0001111_1000100#32 = .ok (.cpy 1 1 90 15 68) ∧
    decode 0b11001100_1_10_1110111_0101100_1100001#32 = .ok (.cpyg 1 2 119 44 97) ∧
    decode 0b11001101_000000000000000000000000#32 = .ok .cpcommit ∧
    decode 0b11001110_0000000000_1000111_0000000#32 = .ok (.pft 71) := by decide

theorem test_decode_system_0 :
    decode 0b11100000_100100_011001_1110_0011_0000#32 = .ok (.wait 36 25 14 3) ∧
    decode 0b11100001_01_10_00000000000000000000#32 = .ok (.fence 1 2) ∧
    decode 0b11100010_0110011110_1010011_0000000#32 = .ok (.bari 414 83) ∧
    decode 0b11100011_0110111011_1110000_0000000#32 = .ok (.bara 443 112) ∧
    decode 0b11100100_0111011000_0001101_0000000#32 = .ok (.barw 472 13) ∧
    decode 0b11100101_0111110101_0101010_1011111#32 = .ok (.bart 501 42 95) ∧
    decode 0b11100110_0010010_1000111_1111100_00_1#32 = .ok (.launch 18 71 124 1) ∧
    decode 0b11100111_0101111_00000000000000000#32 = .ok (.joinw 47) := by decide

theorem test_decode_system_1 :
    decode 0b11101000_1100_0000001_0000000000000#32 = .ok (.lxrd 12 1) ∧
    decode 0b11101001_1001_0011110_1010011_000000#32 = .ok (.enq 9 30 83) ∧
    decode 0b11101010_0000110_00000000000000000#32 = .ok (.depdec 6) ∧
    decode 0b11101011_0011_00000000000000000000#32 = .ok (.winb 3) ∧
    decode 0b11101100_1000000_00000000000000000#32 = .ok (.fmt 64) ∧
    decode 0b11101101_11011101_0000000000000000#32 = .ok (.swpt 221) ∧
    decode 0b11101110_000000000000000000000000#32 = .ok .rfe ∧
    decode 0b11101111_0010111_1001100_0000000000#32 = .ok (.mappg 23 76) := by decide

theorem test_decode_system_2 :
    decode 0b11110000_01_00000000_1101001_0000000#32 = .ok (.pref 1 105) ∧
    decode 0b11110001_00000000_1011011101010001#32 = .ok (.sleep 46929) := by decide

/-- A nonzero bit in a field given as zero, an unassigned operation number and a word too short are rejected by name. -/
theorem test_decode_rejects :
    (∀ i, decode 0x04200000#32 ≠ .ok i) ∧ (∀ i, decode 0x13000000#32 ≠ .ok i) ∧ (∀ i, decode 0xFFFFFFFF#32 ≠ .ok i) ∧
      decodeTableWord 32 0x200A03F9 = some (.saddi 5 0 0x3F9) ∧ decodeTableWord 32 0xFFFFFFFF = none := by
  refine ⟨fun i h => ?_, fun i h => ?_, fun i h => ?_, by decide, by decide⟩ <;> exact absurd h (by simp [decode, decodeS, decodeY, field, fixedBits])

/-! ### Scalar results worked out by hand (R136 to R147) -/

theorem test_scalar_arithmetic :
    [scalarGives (.sadd 0 0 10 4 5) 10 0x80000000 0, scalarGives (.sadd 0 1 10 4 5) 10 0x7FFFFFFF 0x20, scalarGives (.sadd 0 2 10 9 5) 10 0xFFFFFFFF 0x20,
      scalarGives (.sadd 1 0 10 4 6) 10 0x7FFFFFF8 0, scalarGives (.sadd 1 0 10 4 6) 11 4 0, scalarGives (.ssub 0 0 10 5 7) 10 0xFFFFFFFF 0,
      scalarGives (.ssub 0 2 10 5 9) 10 0 0x20, scalarGives (.smul 0 10 6 7) 10 0xFFFFFFF2 0, scalarGives (.smul 3 10 9 9) 10 0xFFFFFFFE 0,
      scalarGives (.sdiv 0 10 6 7) 10 0xFFFFFFFD 0, scalarGives (.sdiv 0 10 6 7) 11 0xFFFFFFFF 0, scalarGives (.sdiv 0 10 4 0) 11 0x7FFFFFFF 0,
      scalarGives (.sdiv 0 10 8 9) 10 0x80000000 0, scalarGives (.sdiv 1 10 6 7) 10 0x7FFFFFFC 0].all id = true := by decide +kernel

theorem test_scalar_logic :
    [scalarGives (.sand 10 6 4) 10 0x7FFFFFF9 0, scalarGives (.sor 10 5 8) 10 0x80000001 0, scalarGives (.sxor 10 4 9) 10 0x80000000 0,
      scalarGives (.sandn 10 4 5) 10 0x7FFFFFFE 0, scalarGives (.sshl 10 5 6) 10 0x02000000 0, scalarGives (.sshr 10 8 7) 10 0x20000000 0,
      scalarGives (.ssra 10 8 7) 10 0xE0000000 0, scalarGives (.smin 0 10 8 5) 10 0x80000000 0, scalarGives (.smin 1 10 8 5) 10 1 0,
      scalarGives (.smax 0 10 8 5) 10 1 0, scalarGives (.smax 1 10 8 5) 10 0x80000000 0, scalarGives (.scmp 2 10 8 5) 10 1 0,
      scalarGives (.scmp 4 10 8 5) 10 0 0, scalarGives (.scmp 5 10 8 5) 10 1 0, scalarGives (.scmp 7 10 6 5) 10 1 0, scalarGives (.sclz 10 5) 10 31 0,
      scalarGives (.sclz 10 0) 10 32 0, scalarGives (.spopc 10 4) 10 31 0, scalarGives (.sand 0 9 9) 0 0 0].all id = true := by decide +kernel

theorem test_scalar_immediates :
    [scalarGives (.saddi 10 5 0x3F9) 10 0xFFFFFFFA 0, scalarGives (.sandi 10 6 0x3FF) 10 0x3F9 0, scalarGives (.sori 10 5 0x200) 10 0x201 0,
      scalarGives (.sxori 10 9 0x3FF) 10 0xFFFFFC00 0, scalarGives (.sshli 10 5 31) 10 0x80000000 0, scalarGives (.sshri 10 8 31) 10 1 0,
      scalarGives (.ssrai 10 8 31) 10 0xFFFFFFFF 0, scalarGives (.smuli 10 6 0x3FF) 10 7 0, scalarGives (.scmpi 10 4 4 0x7F) 10 1 0,
      scalarGives (.scmpi 10 6 2 0) 10 1 0, scalarGives (.sldi 10 0x5678) 10 0x5678 0, scalarGives (.sldi 10 0x1FFFF) 10 0xFFFFFFFF 0,
      scalarGives (.sldhi 12 0x2468) 12 0x12345678 0].all id = true := by decide +kernel

theorem test_special_registers :
    [scalarGives (.srd 10 14) 10 0 0, scalarGives (.srd 10 15) 10 1 0, scalarGives (.srd 10 10) 10 256 0, scalarGives (.srd 10 5) 10 256 0,
      scalarGives (.swr 9) 9 0xFFFFFFFF 0x7F].all id = true := by decide +kernel

/-! ### Vector results worked out by hand (R150 to R165) -/

theorem test_vector_integer :
    [laneGives 3 (.vadd 0 1 20 2 2) 20 1 0x7FFFFFFF, laneGives 3 (.vadd 0 0 20 2 1) 20 1 0x80000000, laneGives 3 (.vadd 1 0 20 1 5) 20 2 0,
      laneGives 3 (.vsub 0 0 20 1 3) 20 1 2, laneGives 3 (.vmul 0 3 20 3 3) 20 0 0xFFFFFFFE, laneGives 3 (.vmad 0 0 1 2 3) 1 1 0x80000002,
      laneGives 3 (.vmad 0 1 1 3 3) 2 0 0x7FFFFFFD, laneGives 3 (.vmad 0 1 1 3 3) 1 1 2,
      laneGives 3 (.vand 0 20 2 3) 20 0 0x7FFFFFFF, laneGives 3 (.vor 1 20 1 8) 20 1 0x80000001, laneGives 3 (.vxor 0 20 2 3) 20 0 0x80000000,
      laneGives 3 (.vshl 0 20 3 1) 20 1 0xFFFFFFFE, laneGives 3 (.vshr 1 20 3 6) 20 0 0x7F, laneGives 3 (.vsra 1 20 3 7) 20 0 0xFFFFFFFF,
      laneGives 3 (.vmin 0 0 20 2 3) 20 0 0xFFFFFFFF, laneGives 3 (.vmin 0 1 20 2 3) 20 0 0x7FFFFFFF, laneGives 3 (.vmax 0 0 20 2 3) 20 0 0x7FFFFFFF,
      laneGives 3 (.vmax 0 1 20 2 3) 20 0 0xFFFFFFFF].all id = true := by decide +kernel

theorem test_vector_fields :
    [laneGives 3 (.vbfe 0 0 20 10 13) 20 0 0x31, laneGives 3 (.vbfe 0 1 20 10 13) 20 0 0xFFFFFFF1, laneGives 3 (.vbfi 0 10 3 13) 10 0 0xABCDEFF2,
      laneGives 3 (.vpopc 20 2) 20 0 31, laneGives 3 (.vclz 20 2) 20 0 1, laneGives 3 (.vmov 1 20 9) 20 1 0xFFFFFFFF, laneGives 3 (.vsel 20 2 1) 20 0 0,
      laneGives 3 (.vpk 0 0 10 2 3) 10 0 0xF12FFF, laneGives 3 (.vpk 0 1 10 2 3) 10 0 0xEF12FFFF, laneGives 3 (.vpk 0 2 20 2 3) 20 0 0xFFFFFFFF,
      laneGives 3 (.vupk 0 0 20 10 1) 20 1 0x3C, laneGives 3 (.vupk 0 1 20 10 1) 20 1 0xEF, laneGives 3 (.vupk 0 2 20 10 1) 20 1 0xABCD].all id
      = true := by decide +kernel

theorem test_vector_immediates :
    [laneGives 3 (.vaddi 20 1 0x3FF) 20 0 0xFFFFFFFF, laneGives 3 (.vandi 20 3 0x3FF) 20 0 0x3FF, laneGives 3 (.vori 20 1 0x200) 20 1 0x201,
      laneGives 3 (.vxori 20 3 1) 20 0 0xFFFFFFFE, laneGives 3 (.vshli 20 1 31) 20 1 0x80000000, laneGives 3 (.vshri 20 3 31) 20 0 1,
      laneGives 3 (.vsrai 20 3 31) 20 0 0xFFFFFFFF, laneGives 3 (.vmuli 20 1 3) 20 1 3, laneGives 3 (.vldi 20 0x10000) 20 0 0xFFFF0000,
      laneGives 3 (.vfldi 20 0x7F00) 20 0 0x3F800000].all id = true := by decide +kernel

theorem test_predicates :
    [nextHas (exec (.vcmpi 2 1 1 16) (hand 0xFFFFFFFF#32)) fun t => t.w.readP 1 == 0x0000FFFF#32,
      nextHas (exec (.vcmp 0 3 2 3 1) (hand 3)) fun t => t.w.readP 2 == 0#32, nextHas (exec (.vcmpn 0 3 2 3 1) (hand 3)) fun t => t.w.readP 2 == 3#32,
      nextHas (exec (.vfcmp 0 2 2 4 6) (hand 3)) fun t => t.w.readP 2 == 3#32 && t.w.nflags == 0#32,
      nextHas (exec (.vfcmp 0 2 2 4 9) (hand 3)) fun t => t.w.readP 2 == 0#32 && t.w.nflags == 1#32].all id = true := by decide +kernel

theorem test_vector_floats :
    [laneGives 1 (.vfadd 0 0 20 4 5) 20 0 0x3F800000, laneGives 1 (.vfadd 0 2 20 4 5) 20 0 0x3F800001, flagsAre (.vfadd 0 0 20 4 5) 0x10,
      laneGives 1 (.vfsub 0 0 20 8 6) 20 0 0xBF800000, laneGives 1 (.vfmul 0 0 20 6 6) 20 0 0x41100000, laneGives 1 (.vfma 0 0 7 6 6) 7 0 0,
      laneGives 1 (.vfmin 0 20 6 9) 20 0 0x40400000, laneGives 1 (.vfmax 0 20 4 6) 20 0 0x40400000, laneGives 1 (.vxf 20 8 0) 20 0 0x3F000000,
      laneGives 1 (.vxf 20 4 4) 20 0 0, laneGives 1 (.vxf 20 8 3) 20 0 0x40800000, laneGives 3 (.vcvt 0 20 1 3 0 0) 20 1 0x3F800000,
      laneGives 1 (.vcvt 0 20 6 0 3 0) 20 0 3].all id = true := by decide +kernel

theorem test_cross_thread :
    [laneGives 0xFFFFFFFF (.vshfl 1 3 20 1 5) 20 3 4, laneGives 0xFFFFFFFF (.vshfl 1 3 20 1 5) 20 31 31, laneGives 0xFFFFFFFF (.vshfl 1 2 20 1 7) 20 5 3,
      laneGives 0xFFFFFFFF (.vshfl 1 1 20 1 5) 20 4 5, laneGives 0xFFFFFFFF (.vscan 20 1 0) 20 4 10, laneGives 0xFFFFFFFF (.vhadm 20 4 0) 20 0 0x40800000,
      laneGives 0xFFFFFFFF (.vhadm 20 4 0) 20 1 0, laneGives 0xFFFFFFFF (.vgetid 20 1) 20 7 7].all id = true := by decide +kernel

theorem test_votes_and_reductions :
    [nextHas (exec (.vred 4 1 0) (hand 0xFFFFFFFF#32)) fun t => t.w.readS 4 == 496#32, nextHas (exec (.vred 4 1 4) (hand 0x0000000F#32)) fun t => t.w.readS 4 == 3#32,
      nextHas (exec (.vvote 4 1 2) (hand 0xF#32)) fun t => t.w.readS 4 == 0#32, nextHas (exec (.vvote 4 1 0) ((hand 0xF#32).setW fun w => w.writeP 1 0xFF 0xFF)) fun t => t.w.readS 4 == 0xF#32].all
      id = true := by decide +kernel

/-! ### States that meet the hypotheses of the statements -/

theorem witness_ScalarResults :
    scalarResult (hand 1#32).w (.sadd 0 1 10 4 5) = some ([(10, 0x7FFFFFFF#32)], 0x20#32) ∧ (hand 1#32).precheck (.sadd 0 1 10 4 5) = none := by
  decide +kernel

/-- Special registers at both ends of what a user program may read, and the latch. -/
theorem witness_SpecialRegisters :
    ∃ t g, base.team = some t ∧ base.grid = some g ∧ base.w.legacy = false ∧ base.precheck (.srd 4 0) = none ∧ base.precheck (.srd 4 17) = none ∧
      base.precheck (.srd 4 6) = none ∧ base.precheck (.swr 9) = none :=
  ⟨_, _, rfl, rfl, rfl, by decide +kernel, by decide +kernel, by decide +kernel, by decide +kernel⟩

theorem witness_VectorResults :
    (∀ k, vectorLane (hand 3#32).w k (.vaddi 20 1 0x3FF) = some (20, BitVec.ofNat 32 (k.val + 0xFFFFFFFF), 0#32)) ∧
      (hand 3#32).precheck (.vaddi 20 1 0x3FF) = none ∧ (hand 3#32).precheck (.vmad 0 0 1 2 3) = none ∧ (hand 3#32).precheck (.vmad 0 1 1 2 3) = none := by
  decide +kernel

theorem witness_DecodeInvertsEncode : (Instr.ldgB32 1 0 4 6 12).isWord = true ∧ decode 0x8202030C#32 = .ok (.ldgB32 0 0 8 6 12) := by decide

/-- A virtual function of partition 0. -/
def plainVf : Vf :=
  { n := 0, enabled := true, part := some 0, portalOpen := true, masked := [], pendingMask := [], tdisp := .unlocked, quantumUs := 1000,
    deficitUs := 0, caps := Capabilities.empty, grants := [], pointers := [], reserved := [], queues := [], msixTable := [], msixPending := [], wayMask := 0xFFFF#16 }

/-- Each rank applies somewhere. -/
theorem witness_FaultRanks :
    (ranks base (.sdiv 0 5 4 4)).find? (·.1) = some (true, 0x01#8) ∧
      (ranks { base with vfs := [{ plainVf with masked := [.matrix] }] } (.gang 4)).find? (·.1) = some (true, 0x02#8) ∧
      (ranks base .rfe).find? (·.1) = some (true, 0x03#8) ∧
      (ranks (base.setW fun w => { w with valloc := 16 }) (.vadd 0 0 15 14 16)).find? (·.1) = some (true, 0x05#8) ∧
      (ranks base (.bra 7)).find? (·.1) = some (true, 0x04#8) ∧ (ranks base (.sadd 0 0 4 5 6)).find? (·.1) = none := by decide +kernel

/-- The state at whose next step the word issues, and the state in which its warp has the turn. -/
def issueOf (word : Nat) : State := State.reset.withFetchWord 32 word
def turnOf (word : Nat) : State := { (issueOf word).tick with agenda := [] }

/-- The block in which it stands. -/
def blockOf (word : Word) : CodeBlock := ⟨1, 1, 0, [0#32, word, 0#32, 0#32, 0#32, 0#32, 0#32, 0#32]⟩

/-- A slot whose turn comes by the agenda, with its block in the buffer, its word decoded, and nothing to wait for. -/
theorem witness_StepRunsDecoded :
    TurnOf (issueOf 0x200A03F9) ⟨1, 1, 0, 0⟩ 0 (turnOf 0x200A03F9) ∧
      Fetched (turnOf 0x200A03F9) ⟨1, 1, 0, 0⟩ 0 (((turnOf 0x200A03F9).warp? ⟨1, 1, 0, 0⟩).get (by decide +kernel)) (blockOf 0x200A03F9#32) ∧
      ((turnOf 0x200A03F9).prepare ⟨1, 1, 0, 0⟩ 0).hazard (.saddi 5 0 0x3F9) = none ∧
      nextHas (exec (.saddi 5 0 0x3F9) ((turnOf 0x200A03F9).prepare ⟨1, 1, 0, 0⟩ 0)) (fun _ => true) = true := by
  refine ⟨⟨by decide +kernel, .inl ⟨[], rfl, rfl⟩⟩, ?_, by decide +kernel, by decide +kernel⟩
  refine ⟨(Option.some_get _).symm, ?_⟩
  decide +kernel

/-- The same where the schedule gives the turn, and a register whose load is out makes the instruction wait. -/
theorem witness_StepRunsDecoded_waits :
    let s : State := ({ issueOf 0x40808084 with agenda := [] }).setW fun w => { w with loads := [⟨1, 4#64, 4, 1, [], .cached, none, 0#32, 0, false, none, 0, []⟩] }
    TurnOf s ⟨1, 1, 0, 0⟩ 0 s.tick ∧ Fetched s.tick ⟨1, 1, 0, 0⟩ 0 ((s.tick.warp? ⟨1, 1, 0, 0⟩).get (by decide +kernel)) (blockOf 0x40808084#32) ∧
      ∃ h, (s.tick.prepare ⟨1, 1, 0, 0⟩ 0).hazard (.vadd 1 0 2 1 4) = some h := by
  refine ⟨⟨by decide +kernel, .inr ⟨rfl, rfl, by decide, rfl, by decide +kernel⟩⟩, ?_, ⟨_, by rfl⟩⟩
  refine ⟨(Option.some_get _).symm, ?_⟩
  decide +kernel

/-- A word that no table assigns, and a reed word with a reserved bit set. -/
theorem witness_UndecodableWord :
    TurnOf (issueOf 0xFFFFFFFF) ⟨1, 1, 0, 0⟩ 0 (turnOf 0xFFFFFFFF) ∧
      Fetched (turnOf 0xFFFFFFFF) ⟨1, 1, 0, 0⟩ 0 (((turnOf 0xFFFFFFFF).warp? ⟨1, 1, 0, 0⟩).get (by decide +kernel)) (blockOf 0xFFFFFFFF#32) ∧
      (match decode 0xFFFFFFFF#32 with | .ok _ => false | .error _ => true) = true := by
  refine ⟨⟨by decide +kernel, .inl ⟨[], rfl, rfl⟩⟩, ?_, by decide +kernel⟩
  refine ⟨(Option.some_get _).symm, ?_⟩
  decide +kernel

theorem test_step_runs_the_word : nextHas (step (issueOf 0x200A03F9)) (fun t => t.w.readS 5 == 0xFFFFFFF9#32 && t.w.frag.pc == 8#64) = true := by
  decide +kernel

/-! ### Memory and translations -/

theorem witness_MemoryReadAfterWrite : (⟨[(3, 1#8), (9, 255#8)]⟩ : Memory).wf = true := by decide

theorem test_memory_canonical :
    ((⟨[(3, 1#8), (9, 255#8)]⟩ : Memory).writeBytes 3 [0#8, 7#8]).cells = [(4, 7#8), (9, 255#8)] := by decide

theorem witness_StepKeepsMemoryCanonical :
    (issueOf 0x200A03F9).Inv ∧ nextHas (step (issueOf 0x200A03F9)) (fun _ => true) = true := ⟨rfl, by decide +kernel⟩

/-- One page mapped at virtual 0x1000 to home 0x200000, owned by context 1. -/
def mapped (s : State) : State :=
  { s with
    mem := ((((s.mem.writeBytes 0x10000 (leBytes 8 0x11001)).writeBytes 0x11000 (leBytes 8 0x12001)).writeBytes 0x12000 (leBytes 8 0x13001)).writeBytes
      0x13000 (leBytes 8 0x14001)).writeBytes 0x14008 (leBytes 8 0x200003)
    owners := [⟨1, true, false, 1, false⟩, ⟨0x20, true, false, 1, false⟩]
    ctxs := s.ctxs.map fun c => { c with pageTable := 0x10000 } }

/-- A breakpoint whose record table lies in the memory of a peer that no link reaches waits for a link. -/
def cutOff : State :=
  let s := mapped (issueOf 0)
  { s with mem := s.mem.writeBytes 0x14008 (leBytes 8 0x200203), ctxs := s.ctxs.map fun c => { c with recordTable := 0x1000 } }

theorem witness_StepRunsDecoded_link :
    (cutOff.prepare ⟨1, 1, 0, 0⟩ 0).meetsCut (exec .brkpt) = true ∧ cutOff.linkLost cutOff.w 0 = false ∧ (∀ y, Instr.brkpt ≠ .pft y) ∧
      nextHas ((cutOff.prepare ⟨1, 1, 0, 0⟩ 0).tryExec .brkpt) (fun t => t.w.hold[(0 : Fin 2)] == some .link) = true := by
  refine ⟨by decide +kernel, by decide +kernel, (by intro y h; cases h), by decide +kernel⟩

end Sys2Proof.Tests
end

