-- ==== Sys2Proof/Tests/Memory.lean ====
section
/-!
SUPPORT. States that meet the hypotheses of the statements about memory instructions, with what the rules say of the next state
there.
-/

namespace Sys2Proof.Tests

set_option Elab.async false

open Sys2Proof.Machine
open Sys2Proof.Claims

/-- A warp over the mapped page: v6 and v7 hold addresses, v8 and v9 data, v12 offsets, the display frames at levels 0 and 1. -/
def overPage (stride : Nat) (mask : Mask) : State :=
  let s := mapped base
  ({ s with mem := s.mem.writeBytes 0x200000 ((List.range 16).map fun i => BitVec.ofNat 8 (i * 7 + 1)) }).setW fun w =>
    ({ w with
      scalars := scalarBank [(4, 0#32), (5, 8#32)]
      vectors := vectorBank [(6, fun t => BitVec.ofNat 32 (0x1000 + stride * t)), (8, fun t => BitVec.ofNat 32 (0x11223344 * (t + 1))),
        (9, fun t => BitVec.ofNat 32 (0x01020304 * (t + 3))), (12, fun t => BitVec.ofNat 32 (stride * t))]
      level := 1
      display := #v[⟨0x1000#64, 256⟩, ⟨0x1100#64, 1024⟩, ⟨0, 0⟩, ⟨0, 0⟩, ⟨0, 0⟩, ⟨0, 0⟩, ⟨0, 0⟩, ⟨0, 0⟩, ⟨0, 0⟩, ⟨0, 0⟩] }).setFrag fun f => { f with mask := mask }

/-- Threads 0 and 31, 132 bytes apart: the last access ends at the page's last byte. -/
def edges : State := overPage 132 0x80000001#32

/-- Where the page's virtual addresses lie. -/
def homeOf (f : Form) (k : Fin 32) : Nat := f.va k - 0x1000 + 0x200000

theorem witness_LoadsIssue : ∃ f kind, loadForm edges.w (.ldgB32 1 0 8 6 4) = some (f, kind) ∧ edges.precheck (.ldgB32 1 0 8 6 4) = none ∧
    Unleased edges (.ldgB32 1 0 8 6 4) ∧ Admitted edges .load f (homeOf f) ∧ LoadRoom edges ∧ edges.requests edges.w.core < 2048 :=
  ⟨_, _, rfl, by decide +kernel, by unfold Unleased; decide +kernel, by unfold Admitted; decide +kernel, by unfold LoadRoom; decide +kernel, by decide +kernel⟩

/-- The last four bytes of the lexical frame at level 0. -/
theorem witness_LoadsIssue_lexical : ∃ f kind, loadForm (overPage 188 1#32).w (.ldx 0 0 8 12 0 7) = some (f, kind) ∧
    (overPage 188 1#32).precheck (.ldx 0 0 8 12 0 7) = none ∧ Admitted (overPage 188 1#32) .load f (homeOf f) :=
  ⟨_, _, rfl, by decide +kernel, by unfold Admitted; decide +kernel⟩

theorem test_load_issues :
    nextHas (exec (.ldgB32 1 0 8 6 4) edges) (fun t => t.w.loads.map (fun x => x.lanes.map (·.ha)) == [[0x200000, 0x200FFC]] && t.w.frag.pc == 8#64)
      = true := by decide +kernel

theorem witness_StoresIssue : ∃ f ef, storeForm edges.w (.stgB32 0 0 8 6 4) = some (f, ef) ∧ edges.precheck (.stgB32 0 0 8 6 4) = none ∧
    Unleased edges (.stgB32 0 0 8 6 4) ∧ Admitted edges .store f (homeOf f) ∧ edges.outStores edges.w < 63 ∧ edges.requests edges.w.core < 2048 ∧
    edges.w.pendingOn (requestsOf edges f (homeOf f)) = none :=
  ⟨_, _, rfl, by decide +kernel, by unfold Unleased; decide +kernel, by unfold Admitted; decide +kernel, by decide +kernel, by decide +kernel, by decide +kernel⟩

theorem test_store_issues :
    nextHas (exec (.stgB16 0 0 8 6 4) edges) (fun t => t.stores.map (fun x => x.lanes.map (·.2)) == [[[0x44#8, 0x33#8], [0x80#8, 0x68#8]]]
      && t.mem.read 0x200000 == 1#8) = true := by decide +kernel

theorem witness_AtomicsIssue : ∃ f c un fl irr n, atomicForm edges.w (.atomgI32 7 8 6 9) = some (f, c, un, fl, irr, n) ∧
    edges.precheck (.atomgI32 7 8 6 9) = none ∧ Unleased edges (.atomgI32 7 8 6 9) ∧ Admitted edges .atomic f (homeOf f) ∧ LoadRoom edges ∧
    edges.outStores edges.w < 63 ∧ edges.requests edges.w.core < 2048 ∧ edges.w.pendingOn (requestsOf edges f (homeOf f)) = none :=
  ⟨_, _, _, _, _, _, rfl, by decide +kernel, by unfold Unleased; decide +kernel, by unfold Admitted; decide +kernel, by unfold LoadRoom; decide +kernel, by decide +kernel,
    by decide +kernel, by decide +kernel⟩

theorem witness_AtomicsIssue_lexical : ∃ f c un fl irr n, atomicForm edges.w (.atomxI64 7 8 12 1 0) = some (f, c, un, fl, irr, n) ∧ n = 10 ∧
    edges.precheck (.atomxI64 7 8 12 1 0) = none :=
  ⟨_, _, _, _, _, _, rfl, rfl, by decide +kernel⟩

/-- What the first clause of `AccessChecks` asks of a state, an instruction, a code and the lowest lane that meets its condition. -/
def Met (s : State) (i : Instr) (c : Code) (k : Fin 32) : Prop :=
  ∃ f write t before after p, anyForm s.w i = some (f, write) ∧ s.precheck i = none ∧ s.team = some t ∧
    laneChecks s t i f = before ++ (c, p) :: after ∧ (∀ q ∈ before, ∀ j, on s.w j = true → q.2 j = false) ∧ on s.w k = true ∧ p k = true ∧
    ∀ j < k, on s.w j = true → p j = false

/-- The same as a computation: check n is the one that is met. -/
def met (s : State) (i : Instr) (n : Nat) (c : Code) (k : Fin 32) : Bool :=
  match anyForm s.w i, s.team with
  | some (f, _), some t =>
    match (laneChecks s t i f).drop n with
    | (d, p) :: _ => d == c && (s.precheck i).isNone && ((laneChecks s t i f).take n).all (fun q => decide (∀ j, on s.w j = true → q.2 j = false)) &&
        decide (on s.w k = true ∧ p k = true ∧ ∀ j < k, on s.w j = true → p j = false)
    | [] => false
  | _, _ => false

theorem met_spec {s : State} {i : Instr} {n : Nat} {c : Code} {k : Fin 32} (h : met s i n c k = true) : Met s i c k := by
  unfold met at h
  split at h
  · next f w t hf ht =>
    split at h
    · next d p after hd =>
      simp only [Bool.and_eq_true, beq_iff_eq, Option.isNone_iff_eq_none, List.all_eq_true, decide_eq_true_eq] at h
      obtain ⟨⟨⟨rfl, hp⟩, hb⟩, hk⟩ := h
      exact ⟨f, w, t, _, after, p, hf, hp, ht, by rw [← hd, List.take_append_drop], hb, hk⟩
    · cases h
  · cases h

/-- One state for each check of R196: a leased register, a misaligned offset (thread 1, at offset 6), a lexical level that the grid does not have,
an offset beyond the lexical class, one beyond the scratchpad and one beyond the private memory, and an address of more than 57 bits. -/
def checks : List (State × Instr × Nat × Code × Fin 32) :=
  let far := (overPage 0 8#32).setW fun w => { w with vectors := w.vectors.set 7 (Vector.replicate 32 0x02000000#32) }
  [((overPage 0 1#32).setW fun w => { w with leases := [(8, 1)] }, .lds 0 0 8 12 4, 0, 0x06, 0), (overPage 6 0xF#32, .lds 0 0 8 12 4, 1, 0x07, 1),
   (overPage 8 4#32, .ldx 0 0 8 12 2 0, 2, 0x0E, 2), (overPage 192 3#32, .ldx 0 0 8 12 0 0, 3, 0x0D, 1), (overPage 4 2#32, .sts 0 0 8 12 4, 2, 0x0B, 1),
   (overPage 4 2#32, .ldp 0 0 8 12 4, 2, 0x0C, 1), (far, .ldgB32 1 0 8 6 4, 2, 0x09, 3)]

theorem witness_AccessChecks : ∀ x ∈ checks, Met x.1 x.2.1 x.2.2.2.1 x.2.2.2.2 := by
  have h : ∀ x ∈ checks, met x.1 x.2.1 x.2.2.1 x.2.2.2.1 x.2.2.2.2 = true := by decide +kernel
  exact fun x hx => met_spec (h x hx)

/-- The code with which the grid ends, no warp having a handler. -/
def endsWith (i : Instr) (s : State) (c : Code) : Bool := nextHas (exec i s) fun t => (t.grid? 1 1).any fun g => g.status == 3 && g.code == c

theorem test_access_checks : ∀ x ∈ checks, endsWith x.2.1 x.1 x.2.2.2.1 = true := by decide +kernel

/-- Thread 1's page is not mapped; a page without write permission. -/
def unmapped : State := overPage 4096 3#32
def readOnly : State := let s := overPage 0 2#32; { s with mem := s.mem.writeBytes 0x14008 (leBytes 8 0x200001) }

/-- No lane meets a check before the translation, and the first word that thread 1 translates. -/
def pastChecks (s : State) (i : Instr) (va : Nat) : Bool :=
  match anyForm s.w i, s.team with
  | some (f, _), some t => (s.precheck i).isNone && (wordsOf s.w i f 1 == [va]) && on s.w 1 && (laneChecks s t i f).all fun q => decide (∀ j, on s.w j = true → q.2 j = false)
  | _, _ => false

theorem witness_AccessChecks_translation :
    pastChecks unmapped (.ldgB32 1 0 8 6 4) 0x2000 = true ∧ pastChecks readOnly (.stgB32 0 0 8 6 4) 0x1000 = true ∧
      unmapped.translate (.core unmapped.w.core) 1 (accessOf unmapped.w (.ldgB32 1 0 8 6 4)) false 0x2000 = .error 0x08#8 ∧
      readOnly.translate (.core readOnly.w.core) 1 (accessOf readOnly.w (.stgB32 0 0 8 6 4)) false 0x1000 = .error 0x09#8 ∧
      endsWith (.ldgB32 1 0 8 6 4) unmapped 0x08 = true ∧ endsWith (.stgB32 0 0 8 6 4) readOnly 0x09 = true :=
  ⟨by decide +kernel, by decide +kernel, by decide +kernel, by decide +kernel, by decide +kernel, by decide +kernel⟩

/-! ### Scratchpad and private memory (R82 to R87) -/

/-- A team with an allocation of 4,096 bytes, both pages resident; threads 0 and 31 at its first and last words. -/
def spadState : State :=
  let s := overPage 132 0x80000001#32
  { s with teams := s.teams.map fun t => { t with
      spadsz := 4096
      pages := [⟨0, .resident, (List.range 2048).map fun i => BitVec.ofNat 8 i, false, true, [], none, 0, none⟩,
        ⟨1, .resident, (List.range 2048).map fun i => BitVec.ofNat 8 (4095 - i), false, true, [], none, 0, none⟩] } }

theorem witness_ScratchpadAccesses : ∃ t, SpadReady spadState t (offsetForm spadState.w 4 0 8 12 4) ∧ spadState.requests spadState.w.core < 2048 ∧
    spadState.precheck (.lds 0 0 8 12 4) = none ∧ Unleased spadState (.lds 0 0 8 12 4) ∧ LoadRoom spadState ∧
    spadState.precheck (.sts 0 0 8 12 4) = none ∧ Unleased spadState (.sts 0 0 8 12 4) ∧ spadState.outStores spadState.w < 63 := by
  refine ⟨_, ⟨rfl, ?_⟩, ?_⟩
  · decide +kernel
  · unfold Unleased LoadRoom
    decide +kernel

theorem witness_ScratchpadAccesses_atomic : ∃ t f c un fl n, spadAtomicForm spadState.w (.atomsI32 0 8 12 9) = some (f, c, un, fl, n) ∧ SpadReady spadState t f ∧
    spadState.precheck (.atomsI32 0 8 12 9) = none ∧ Unleased spadState (.atomsI32 0 8 12 9) := by
  refine ⟨_, _, _, _, _, _, rfl, ⟨rfl, ?_⟩, ?_⟩
  · decide +kernel
  · unfold Unleased
    decide +kernel

/-- The first and the last word of the allocation; an atomic addition leaves the sum. -/
theorem test_scratchpad :
    nextHas (exec (.lds 0 0 8 12 4) spadState) (fun t => t.w.loads.map (·.data) == [some [(0, 0x03020100#128), (31, 0x00010203#128)]]) = true ∧
      nextHas (exec (.atomsI32 0 8 12 9) spadState) (fun t => (t.team.map fun x => spadNumber x 0 4) == some (0x03020100 + 3 * 0x01020304)) = true := by
  decide +kernel

/-- The translation of the page, its dirty bit set, and the sectors of the two words. -/
def dirtyEntry : TlbEntry := ⟨.core ⟨0, 0⟩, 1, 0x1000, 4096, 0x1000, 0x200033#64, 0x14008⟩
def privateSector (i : Nat) : L1Sector := ⟨⟨0, 0⟩, 1, 0x200700 + 0x80 * i, List.replicate 64 7#8, true, false, false⟩

/-- A thread whose two private words, the last of its 64 bytes, stand in the core's L1 under a cached, dirty translation. -/
def privateState : State :=
  let s := overPage 56 2#32
  { s with
    tlb := [dirtyEntry]
    l1 := [privateSector 0, privateSector 1] }.setW fun w =>
      { w with privBase := 0x1000, privsz := 64 }

/-- The home addresses of the words that thread 1 moves. -/
def privateHome (k : Fin 32) (i : Nat) : Nat := privateVa privateState.w k (56 * k.val) i - 0x1000 + 0x200000

theorem privateState_words : ∀ k : Fin 32, on privateState.w k = true → 56 * k.val % 8 = 0 ∧ 56 * k.val + 8 ≤ privateState.w.privsz ∧ ∀ i < 2,
    (∀ a ∈ [Access.load, .store], privateState.translate (.core privateState.w.core) 1 a false (privateVa privateState.w k (56 * k.val) i) = .ok (privateHome k i)) ∧
      privateHome k i < 2 ^ 52 ∧ privateHome k i % 64 ≤ 60 ∧ privateState.cached (.core privateState.w.core) 1 (privateVa privateState.w k (56 * k.val) i) = some dirtyEntry ∧
      privateState.l1Sector privateState.w.core 1 (privateHome k i) = some (privateSector i) ∧ (privateSector i).ha = privateHome k i / 64 * 64 := by decide +kernel

theorem privateState_offset : ∀ k : Fin 32, on privateState.w k = true → (offsetForm privateState.w 8 0 8 12 4).o k = 56 * k.val := by decide +kernel

theorem privateState_hit (a : Access) (ha : a ∈ [Access.load, .store]) (write : Bool) :
    PrivateReady privateState (offsetForm privateState.w 8 0 8 12 4) a write privateHome := by
  intro k hk
  obtain ⟨h1, h2, h3⟩ := privateState_words k hk
  rw [privateState_offset k hk]
  refine ⟨h1, h2, fun i hi => ?_⟩
  obtain ⟨h4, h5, h6, h7, h8, h9⟩ := h3 i hi
  exact ⟨h4 a ha, h5, h6, ⟨_, h7, fun _ => rfl⟩, .inl ⟨_, h8, List.length_replicate, h9⟩⟩

theorem witness_PrivateAccesses : privateState.requests privateState.w.core < 2048 ∧
    privateState.precheck (.ldp 1 0 8 12 4) = none ∧ Unleased privateState (.ldp 1 0 8 12 4) ∧
    PrivateReady privateState (offsetForm privateState.w 8 0 8 12 4) .load false privateHome ∧ LoadRoom privateState ∧
    L1Room privateState (privateSectors privateState (offsetForm privateState.w 8 0 8 12 4) privateHome) ∧
    (∀ write, PrivateQuiet privateState (offsetForm privateState.w 8 0 8 12 4) write privateHome) ∧
    privateState.precheck (.stp 1 0 8 12 4) = none ∧ Unleased privateState (.stp 1 0 8 12 4) ∧
    PrivateReady privateState (offsetForm privateState.w 8 0 8 12 4) .store true privateHome ∧ privateState.outStores privateState.w < 63 :=
  ⟨by decide +kernel, by decide +kernel, by unfold Unleased; decide +kernel, privateState_hit _ (by decide) _, by unfold LoadRoom; decide +kernel,
    by unfold L1Room; decide +kernel, fun _ _ _ _ _ => ⟨fun _ h => absurd h List.not_mem_nil, fun _ h => absurd h List.not_mem_nil⟩, by decide +kernel,
    by unfold Unleased; decide +kernel, privateState_hit _ (by decide) _, by decide +kernel⟩

/-- The homes of that one thread's words meet the three conditions of a store. -/
theorem witness_PrivateAccesses_homes : ∀ l : Fin 32, on privateState.w l = true → ∀ i < 2, privateHome l i % 64 = privateVa privateState.w l (56 * l.val) i % 64 ∧
    ∀ m : Fin 32, on privateState.w m = true → ∀ j < 2,
      (privateHome l i = privateHome m j → privateVa privateState.w l (56 * l.val) i = privateVa privateState.w m (56 * m.val) j) ∧
      (privateHome l i / 64 = privateHome m j / 64 ↔ privateVa privateState.w l (56 * l.val) i / 64 = privateVa privateState.w m (56 * m.val) j / 64) := by
  decide +kernel

theorem test_private_store :
    nextHas (exec (.stp 1 0 8 12 4) privateState) (fun t => heldWord t (privateHome 1 0) == 0x22446688 && heldWord t (privateHome 1 1) == 0x04080C10
      && t.mem == privateState.mem) = true := by decide +kernel

/-! ### Returns and acknowledgements (R74, R194, R205) -/

/-- The state after an instruction. -/
def after (i : Instr) (s : State) : State := match exec i s with
  | .next t => t
  | _ => s

/-- A load whose data have not come back: threads 0 and 31. -/
def loading : State := after (.ldgB32 1 0 8 6 4) (overPage 4 0x80000001#32)

theorem witness_LoadReturns : ∃ w x, CanReturn loading ⟨1, 1, 0, 0⟩ 1 w x ∧ x.kind = .bypass ∧ loading.l1 = [] ∧ loading.mem.wf = true ∧
    x.lanes = [(0 : Fin 32), 31].map (fun k => ⟨k.val, 0x1000 + 4 * k.val, 0x200000 + 4 * k.val, 0, x.size⟩) ∧ 0 < x.size ∧ x.size ≤ 16 ∧
    ∀ k ∈ [(0 : Fin 32), 31], (0x200000 + 4 * k.val) % 64 + x.size ≤ 64 ∧ loading.sectorCode 1 (0x200000 + 4 * k.val) x.size = 0#8 := by
  refine ⟨(loading.warp? ⟨1, 1, 0, 0⟩).get (by decide +kernel), loading.w.loads.head (by decide +kernel), ⟨(Option.some_get _).symm, by decide +kernel, ?_⟩, ?_⟩ <;> decide +kernel

theorem test_load_returns :
    nextHas (exec (.loadDataReturn ⟨1, 1, 0, 0⟩ 1) loading) (fun t => (t.w.readV 8)[(0 : Fin 32)] == 0x160F0801#32 && t.w.loads == []) = true := by
  decide +kernel

/-- A compare-and-swap of one thread at the page's first word, whose comparison value is the old one. -/
def swapping : State :=
  after (.atomgI32 7 8 6 9) ((overPage 4 1#32).setW fun w => { w with vectors := w.vectors.set 8 (Vector.replicate 32 0x160F0801#32) })

theorem witness_AtomicReturns : ∃ w x, CanReturn swapping ⟨1, 1, 0, 0⟩ 1 w x ∧
    x.kind = .atomic 7 false false false ([(0 : Fin 32)].map fun _ => (0x0306090C#64, 0x160F0801#64)) ∧ swapping.mem.wf = true ∧
    x.lanes = [(0 : Fin 32)].map (fun k => ⟨k.val, 0x1000 + 4 * k.val, 0x200000 + 4 * k.val, 0, x.size⟩) ∧ x.size = 4 ∧
    swapping.sectorCode 1 0x200000 4 = 0#8 ∧ swapping.owns 1 0x200000 = true ∧ ∀ y ∈ swapping.l1, y.dirty = false := by
  refine ⟨(swapping.warp? ⟨1, 1, 0, 0⟩).get (by decide +kernel), swapping.w.loads.head (by decide +kernel), ⟨(Option.some_get _).symm, by decide +kernel, ?_⟩, ?_⟩ <;> decide +kernel

/-- Two lanes whose stores overlap: the later one's byte stays (R198). -/
def storing : State := after (.stgB16 0 0 8 6 4) (overPage 0 3#32)

theorem witness_StorePerformed : ∃ p ∈ storing.stores, p.warp = ⟨1, 1, 0, 0⟩ ∧ p.id = 1 ∧ storing.mem.wf = true ∧
    (∀ q ∈ storing.stores, q.id = 1 ∨ (q.core = p.core ∧ q.warp.ctx = 1) → q = p) ∧
    (∀ l ∈ p.lanes, storing.homeBlocked [(⟨1, 1, 0, 0⟩, 1)] l.1.ha = false ∧ storing.storeCode 1 l.1.ha = 0#8 ∧ storing.owns 1 l.1.ha = true ∧ l.2.length = l.1.len ∧ l.1.ha % 64 + l.1.len ≤ 64 ∧
      0 < l.1.len) ∧ ∀ y ∈ storing.l1, y.dirty = false := by
  refine ⟨storing.stores.head (by decide +kernel), List.head_mem _, ?_⟩
  decide +kernel

theorem test_store_performed :
    nextHas (exec (.storeAcknowledged ⟨1, 1, 0, 0⟩ 1) storing) (fun t => t.mem.readNat 0x200000 2 == 0x6688 && t.stores == []) = true := by decide +kernel

end Sys2Proof.Tests
end

