-- ==== Sys2Proof/Tests/Control.lean ====
section
/-!
SUPPORT. States that meet the hypotheses of the statements about control, claims, copies, waiting and barriers, with what the
rules say of the next state there.
-/

namespace Sys2Proof.Tests

set_option Elab.async false

open Sys2Proof.Machine
open Sys2Proof.Claims

/-- A warp with threads 0 to 7 active, at program counter 4; p1 holds threads 0, 2, 4 and 6, p3 all. -/
def splitter : State := base.setW fun w => ({ w with
  scalars := scalarBank [(4, 1#32), (6, 0x40004#32), (9, 3#32), (12, 0x1008#32)]
  preds := #v[0#32, 0x55#32, 0#32, 0xFFFFFFFF#32, 0#32, 0#32, 0#32, 0#32, 0#32, 0#32, 0#32, 0#32, 0#32, 0#32, 0#32, 0#32] }).setFrag fun f =>
    { f with mask := 0xFF#32 }

/-! ### Branches and splits (R176 to R178) -/

theorem witness_Branches :
    branchOf splitter.w (.bra 512) = some (true, 2052#64) ∧ splitter.precheck (.bra 512) = none ∧
      branchOf splitter.w (.brall 1 2) = some (false, 12#64) ∧ splitter.precheck (.brall 1 2) = none ∧
      branchOf splitter.w (.jmpr 6) = some (true, 0x40004#64) ∧ splitter.precheck (.jmpr 6) = none ∧ splitter.precheck .yield = none := by decide +kernel

theorem test_branches :
    [nextHas (exec (.brany 1 2) splitter) (fun t => t.w.frag.pc == 12#64), nextHas (exec (.brall 1 2) splitter) (fun t => t.w.frag.pc == 8#64),
      nextHas (exec (.brz 4 2) splitter) (fun t => t.w.frag.pc == 8#64), nextHas (exec (.brnz 4 2) splitter) (fun t => t.w.frag.pc == 12#64),
      nextHas (exec .yield splitter) (fun t => t.w.yielded == #v[true, false])].all id = true := by decide +kernel

/-- The same with private memory: the spilled and the record entry can be written. -/
def spiller (cur : Fin 2) (legacy : Bool) : State :=
  let s := mapped splitter
  { s with
    tlb := [⟨.core ⟨0, 0⟩, 1, 0x1000, 8192, 0x1000, 0x200033#64, 0x14008⟩] }.setW fun w =>
    { w with
      privBase := 0x1000, privsz := 32, legacy := legacy, cur := cur
      slots := #v[⟨.live, ⟨4, 0xFF, 0, none, 0⟩⟩, ⟨.live, ⟨4, 0xFF0000, 0, none, 0⟩⟩] }

/-- No thread, every thread, and some threads whose predicate bit is set; no entry is free. -/
theorem witness_BrdSplits :
    splitter.precheck (.brd 0 2 3) = none ∧ splitter.w.frag.mask &&& splitter.w.readP 0 = 0#32 ∧ splitter.w.frag.mask &&& splitter.w.readP 1 ≠ 0#32 ∧
      splitter.w.frag.mask &&& ~~~(splitter.w.readP 3) = 0#32 ∧ splitter.w.frag.mask &&& ~~~(splitter.w.readP 1) ≠ 0#32 ∧
      (freeSplits splitter.w).head? = some 0 ∧ splitter.w.slots[otherSlot splitter.w].st = .empty ∧
      freeSplits (splitter.setW fun w => { w with split := Vector.replicate 64 (.record none 0#64 0#32 0#32 2) }).w = [] := by decide +kernel

theorem witness_BrdSplits_writes :
    (spiller 0 false).privWriteCode (spiller 0 false).w ((spiller 0 false).w.entryVa 0) 16 = 0#8 ∧
      (spiller 0 false).privWriteCode (spiller 0 false).w ((spiller 0 false).w.entryVa 63) 16 = 0#8 ∧
      (freeSplits (spiller 0 false).w).length = 64 ∧ ¬ ((spiller 0 false).w.legacy = false ∧ (spiller 0 false).w.slots[otherSlot (spiller 0 false).w].st = .empty) := by
  decide +kernel

theorem test_split_spills :
    nextHas (exec (.brd 1 2 3) (spiller 0 false)) (fun t => t.w.spill[(0 : Fin 2)] == [1] && t.w.frag.mask == 0xAA#32 && t.w.frag.pc == 8#64
      && t.w.split[1]? == some (.spilled ⟨12, 0x55#32, 0, some 0, t.nextId - 1⟩)) = true := by decide +kernel

/-! ### Loops (R182 to R185) -/

/-- A level that starts at 0x14. -/
def levelOf (last : Addr) (count : Word) (owner : Mask) (order : Nat) : LoopLevel := ⟨true, 0x14#64, last, count, owner, order⟩

/-- The warp with these levels. -/
def looping (l : Vector LoopLevel 4) : State := splitter.setW fun w => { w with loops := l, loopOrder := 10 }

/-- A count of 0, a count with a free level behind a live one, all levels live. -/
theorem witness_HardwareLoops :
    let free := looping #v[levelOf 0x40#64 2#32 0xFFFF#32 1, freeLevel, levelOf 0x40#64 2#32 0xFFFF#32 2, freeLevel]
    let full := looping (Vector.replicate 4 (levelOf 0x40#64 2#32 0xFFFF#32 1))
    free.precheck (.loop 9 1) = none ∧ free.w.readS 0 = 0#32 ∧ free.w.readS 9 ≠ 0#32 ∧ free.w.loops[(1 : Fin 4)].live = false ∧
      (∀ m ∈ waveLevels free.w, m < 1 → free.w.loops[m].live = true) ∧ full.precheck (.loop 9 1) = none ∧ (∀ l ∈ waveLevels full.w, full.w.loops[l].live = true) := by
  decide +kernel

/-- The end word of the innermost of two levels, at counts 2 and 1; the outer level ends elsewhere. -/
def atEnd (count : Word) : State := looping #v[levelOf 0x40#64 1#32 0xFFFF#32 3, freeLevel, levelOf 4#64 count 0xFF#32 4, freeLevel]

theorem witness_HardwareLoops_end (count : Word) (h : count = 2#32 ∨ count = 1#32) :
    OwnsInnermost (atEnd count).w 2 ∧ (atEnd count).w.loops[(2 : Fin 4)].le = (atEnd count).w.frag.pc ∧ (atEnd count).precheck .nop = none ∧
      (atEnd count).precheck .lbrk = none ∧ ∀ m : Fin 4, m ≠ 2 → (atEnd count).w.loops[m].live = true → (atEnd count).w.loops[m].le ≠ (atEnd count).w.frag.pc := by
  unfold OwnsInnermost
  obtain rfl | rfl := h <;> decide +kernel

theorem test_loop_end :
    [nextHas (exec .nop (atEnd 2)) (fun t => t.w.frag.pc == 0x14#64 && t.w.loops[(2 : Fin 4)].lc == 1#32),
      nextHas (exec .nop (atEnd 1)) (fun t => t.w.frag.pc == 8#64 && !t.w.loops[(2 : Fin 4)].live),
      nextHas (exec .lbrk (atEnd 2)) (fun t => t.w.frag.pc == 8#64), nextHas (exec (.loop 9 1) splitter) (fun t => t.w.loops[(0 : Fin 4)].le == 8#64)].all id
      = true := by decide +kernel

/-! ### Calls and exit (R178 to R181, R187) -/

/-- A thread at a call depth whose return entries, at home 0x201400 on, hold 0x2344; the return entries of a warp of 32 private bytes begin
2,048 bytes past its base. -/
def caller (depth : Nat) : State :=
  let s := mapped splitter
  { s with
    tlb := [⟨.core ⟨0, 0⟩, 1, 0x1000, 16384, 0x1000, 0x200033#64, 0x14008⟩]
    l1 := (List.range 2).map fun n => ⟨⟨0, 0⟩, 1, 0x200800 + 256 * (depth - 1) + 256 * n, (List.range 8).flatMap fun _ => [0x44#8, 0x23#8, 0, 0, 0, 0, 0, 0], true, false, false⟩ }.setW fun w =>
    ({ w with privBase := 0x1000, privsz := 32, depth := Vector.replicate 32 depth }).setFrag fun f => { f with mask := 1#32 }

/-- Homes of a thread's return entries. -/
def returnHome (depth : Nat) (k : Fin 32) : Nat := returnEntry (caller depth).w k depth - 0x1000 + 0x200000

theorem caller_hit : ∀ k : Fin 32, on (caller 31).w k = true →
    (caller 31).translate (.core ⟨0, 0⟩) 1 .store false (returnEntry (caller 31).w k 31) = .ok (returnHome 31 k) ∧ returnHome 31 k < 2 ^ 52 ∧
      returnHome 31 k % 64 = returnEntry (caller 31).w k 31 % 64 ∧ returnHome 31 k % 64 ≤ 56 ∧
      (((caller 31).cached (.core ⟨0, 0⟩) 1 (returnEntry (caller 31).w k 31)).any fun e => e.pte.getLsbD 5) = true ∧
      (((caller 31).l1Sector ⟨0, 0⟩ 1 (returnHome 31 k)).any fun x => x.bytes.length == 64 && x.ha == returnHome 31 k / 64 * 64) = true := by decide +kernel

theorem witness_CallsAndReturns :
    callOf (caller 31).w (.call 5) = some 24#64 ∧ (caller 31).precheck (.call 5) = none ∧ (∀ k, on (caller 31).w k = true → (caller 31).w.depth[k] < 32) ∧
      (caller 31).stores = [] ∧ (caller 31).w.loads = [] ∧
      ReturnReady (caller 31) .store true (fun k => returnEntry (caller 31).w k (caller 31).w.depth[k]) (returnHome 31) := by
  refine ⟨by decide +kernel, by decide +kernel, by decide +kernel, by decide +kernel, by decide +kernel, fun k hk => ?_⟩
  have hd : (caller 31).w.depth[k] = 31 := by clear hk; revert k; decide +kernel
  obtain ⟨h1, h2, h3, h4, h5, h6⟩ := caller_hit k hk
  obtain ⟨e, he, h5⟩ := (Option.any_eq_true _ _).mp h5
  obtain ⟨x, hx, h6⟩ := (Option.any_eq_true _ _).mp h6
  simp only [hd]
  exact ⟨h1, h2, h3, h4, ⟨e, he, fun _ => h5⟩, .inl ⟨x, hx, by simpa using h6⟩⟩

/-- The same where the L1 holds nothing: the sector of the entry is filled. -/
theorem witness_CallsAndReturns_miss : L1Room (caller 31) (returnSectors (caller 31) (returnHome 31)) ∧
    L1Room { caller 31 with l1 := [] } (returnSectors { caller 31 with l1 := [] } (returnHome 31)) ∧
    SectorAt { caller 31 with l1 := [] } (returnHome 31 0) := by
  refine ⟨by unfold L1Room; decide +kernel, by unfold L1Room; decide +kernel, .inr ?_⟩
  decide +kernel

/-- Depths at the limits, and what `ret` finds. -/
theorem witness_CallsAndReturns_limits :
    (caller 32).precheck (.callr 6) = none ∧ on (caller 32).w 0 = true ∧ (caller 32).w.depth[(0 : Fin 32)] = 32 ∧ (caller 0).precheck .ret = none ∧
      (caller 0).w.depth[(0 : Fin 32)] = 0 ∧ (caller 32).precheck .ret = none ∧ heldAddress (caller 32) (returnHome 31 0) = 0x2344 ∧
      0x2344 % 4 = 0 ∧ 0x2344 / 4 % 8 ≠ 0 := by decide +kernel

/-- Return entries that no L1 holds: `ret` waits as a load does. -/
def waitingReturn : State := { caller 32 with l1 := [] }

theorem witness_CallsAndReturns_waits :
    waitingReturn.precheck .ret = none ∧ on waitingReturn.w 0 = true ∧ waitingReturn.l1Sector ⟨0, 0⟩ 1 (returnHome 31 0) = none ∧
      waitingReturn.stores = [] ∧ waitingReturn.w.loads = [] ∧
      ∀ k : Fin 32, on waitingReturn.w k = true → 0 < waitingReturn.w.depth[k] ∧ waitingReturn.homeBlocked [] (returnHome 31 k) = false ∧
        waitingReturn.translate (.core ⟨0, 0⟩) 1 .load false (returnEntry waitingReturn.w k (waitingReturn.w.depth[k] - 1)) = .ok (returnHome 31 k) := by
  decide +kernel

theorem test_ret_waits :
    nextHas (exec .ret waitingReturn) (fun t => t.w.frag.pc == 4#64 && t.w.hold[(0 : Fin 2)] == some (.loadResult true)
      && t.w.loads.map (fun x => x.lanes.map (·.ha)) == [[returnHome 31 0]]) = true := by decide +kernel

theorem test_calls :
    [nextHas (exec (.call 5) (caller 31)) (fun t => heldAddress t (returnHome 31 0) == 8 && t.w.depth[(0 : Fin 32)] == 32 && t.w.frag.pc == 24#64),
      nextHas (exec .ret (caller 32)) (fun t => t.w.frag.pc == 0x2344#64 && t.w.depth[(0 : Fin 32)] == 31)].all id = true := by decide +kernel

/-- Under record 2: the last fragment but one, and the last; all threads gone. -/
def exiting (count : Nat) : State := splitter.setW fun w => { w with
  split := w.split.set 2 (.record (some 5) 0x40#64 0xFFFF#32 7#32 count)
  slots := #v[⟨.live, ⟨4, 0xFF, 3, some 2, 0⟩⟩, ⟨.empty, Fragment.none⟩] }
def leaving : State := splitter.setW fun w => { w with exited := 0xFFFFFF00#32, openOps := [3, 4], copyBatches := [⟨[7]⟩] }

theorem witness_ExitEnds :
    splitter.precheck .exit = none ∧ (∀ q : Fin 2, splitter.w.spill[q] = []) ∧ (∀ l : Fin 4, splitter.w.loops[l].live = false) ∧ splitter.w.frag.record = none ∧
      splitter.w.exited ||| splitter.w.frag.mask ≠ 0xFFFFFFFF#32 ∧ (exiting 2).precheck .exit = none ∧
      (exiting 2).w.split[2]? = some (.record (some 5) 0x40#64 0xFFFF#32 7#32 2) ∧ (exiting 1).w.split[2]? = some (.record (some 5) 0x40#64 0xFFFF#32 7#32 1) ∧
      0xFFFF#32 &&& ~~~((exiting 1).w.exited ||| (exiting 1).w.frag.mask) ≠ 0#32 ∧ leaving.w.exited ||| leaving.w.frag.mask = 0xFFFFFFFF#32 ∧
      leaving.precheck .exit = none ∧ leaving.w.present = true ∧ (leaving.team.all fun t => t.request.isNone) = true ∧ leaving.latches = [] := by decide +kernel

theorem test_exit :
    [nextHas (exec .exit (exiting 1)) (fun t => t.w.frag.mask == 0xFF00#32 && t.w.frag.pc == 0x40#64 && t.w.frag.record == some 5),
      nextHas (exec .exit leaving) (fun t => t.w.tileBatches == [⟨[3, 4]⟩] && t.w.copyBatches == [])].all id = true := by decide +kernel

end Sys2Proof.Tests
end

