-- ==== Sys2Proof/Tests/Matrix.lean ====
section
/-!
SUPPORT. States that meet the hypotheses of the statements about claims, matrix operations, copies, waiting and barriers, with
what the rules say of the next state there.
-/

namespace Sys2Proof.Tests

set_option Elab.async false

open Sys2Proof.Machine
open Sys2Proof.Claims

/-! ### Settings and claims (R28, R222, R249 to R251) -/

/-- The state with a value in s20. -/
def holding (s : State) (v : Word) : State := s.setW fun w => w.writeS 20 v

/-- The team has 16 warps and the warp is number 9 of it. -/
def ninth (v : Word) : State :=
  let s : State := { base with teams := base.teams.map fun t => { t with warps := 16 } }
  holding (s.setW fun w => { w with id := ⟨1, 1, 0, 9⟩ }) v

theorem witness_WarpSettings :
    (ninth 0x106).team.isSome = true ∧ (ninth 0x106).precheck (.gang 20) = none ∧ gangFits ((ninth 0x106).w.readS 20) 9 16 = true ∧
      gangFits ((ninth 0x102).w.readS 20) 9 16 = false ∧ gangFits ((ninth 0x17F).w.readS 20) 9 16 = false ∧ (ninth 0x33).precheck (.fmt 20) = none ∧
      (ninth 0x33).w.readS 20 = 0x33#32 ∧ FormatLegal 0x33#32 ∧ FormatLegal 0x1D66#32 ∧ ¬ FormatLegal 0x4111#32 ∧ ¬ FormatLegal 0x66#32 ∧
      ¬ FormatLegal 0x133#32 ∧ ¬ FormatLegal 0x2000#32 ∧ ¬ FormatLegal 0x20000#32 ∧ base.precheck (.winb 15) = none ∧
      base.precheck (.sleep 0) = none ∧ base.precheck (.sleep 65535) = none := by
  unfold FormatLegal oneFamily
  refine ⟨?_, ?_, ?_, ?_, ?_, ?_, ?_, ?_, ?_, ?_, ?_, ?_, ?_, ?_, ?_, ?_, ?_⟩ <;> decide +kernel

theorem test_settings :
    [nextHas (exec (.gang 20) (ninth 0x106)) (fun t => t.w.gang == 0x106#32), nextHas (exec (.fmt 20) (ninth 0x33)) (fun t => t.w.frag.fmt == 0x33#32),
      nextHas (exec (.winb 15) base) (fun t => t.w.wbase == 240), nextHas (exec (.sleep 65535) base) (fun t => t.w.sleepUntil == some (base.clock + 4194240))].all id
      = true := by decide +kernel

/-- The core's claims of operand slots are those of the list, by a team. -/
def claimedSlots (l : List Nat) (acc : Option Nat) (s : State) : State :=
  { s with
    cores := s.cores.map fun c => { c with
      slots := l.foldl (fun v i => v.setIfInBounds i ⟨some ⟨1, 1, 0⟩, false, none, false⟩) c.slots
      accs := match acc with | some a => c.accs.setIfInBounds a ⟨some ⟨1, 1, 0⟩, false, some 1, Vector.replicate 128 (Vector.replicate 128 0x3F800000#32), none⟩ | none => c.accs }
    teams := s.teams.map fun t => { t with slotMap := (List.range l.length).zip l, accMap := acc.toList.map fun a => (0, a) } }

/-- No slot free; the lowest free slot and the lowest free index; an index not held and one held. -/
theorem witness_ClaimsComeAndGo :
    let full := claimedSlots (List.range 16) none base
    let some' := claimedSlots [0, 1, 3] none base
    full.precheck (.tclaim 0 20) = none ∧ (∀ i < 16, (((full.core ⟨0, 0⟩).slots[i]?).any fun a => a.claim.isNone) = false) ∧ some'.precheck (.tclaim 0 20) = none ∧
      ((((some'.core ⟨0, 0⟩).slots[2]?).any fun a => a.claim.isNone) = true) ∧ (∀ i < 2, (((some'.core ⟨0, 0⟩).slots[i]?).any fun a => a.claim.isNone) = false) ∧
      (some'.team.map fun t => claimed t.slotMap 3) = some none ∧ some'.precheck (.trel 0 20) = none ∧
      ((holding some' 2).team.map fun t => claimed t.slotMap 2) = some (some 3) ∧ some'.ops = [] ∧
      (∀ i : Fin 16, (some'.core ⟨0, 0⟩).slots[i].release = false) ∧ ∀ i : Fin 4, (some'.core ⟨0, 0⟩).accs[i].release = false := by decide +kernel

theorem test_claims :
    let some' := claimedSlots [0, 1, 3] none base
    [nextHas (exec (.tclaim 0 20) some') (fun t => t.w.readS 20 == 3#32 && (t.team.map fun x => claimed x.slotMap 3) == some (some 2)),
      nextHas (exec (.tclaim 1 20) some') (fun t => t.w.readS 20 == 0#32),
      nextHas (exec (.trel 0 20) (holding some' 2)) (fun t => (t.team.map fun x => claimed x.slotMap 2) == some none)].all id = true := by decide +kernel

/-! ### Matrix operations and copies (R214 to R239) -/

/-- A two-mebibyte page at virtual address 0 with homes from 0x200000 (R65), its record table at 0x1000. -/
def bigPage (s : State) : State :=
  { s with
    mem := (((s.mem.writeBytes 0x10000 (leBytes 8 0x11001)).writeBytes 0x11000 (leBytes 8 0x12001)).writeBytes 0x12000 (leBytes 8 0x13001)).writeBytes
      0x13000 (leBytes 8 0x200063)
    owners := ⟨1, true, false, 1, false⟩ :: (rangeFrom 0x20 32).map fun f => ⟨f, true, false, 1, false⟩
    ctxs := s.ctxs.map fun c => { c with pageTable := 0x10000, recordTable := 0x1000 } }

/-- Bytes at a virtual address of that page. -/
def putAt (s : State) (a : Nat) (b : List Byte) : State := { s with mem := s.mem.writeBytes (0x200000 + a) b }

/-- The bytes of a tile record (R89): base, format, rank, two extents, stride, logarithms of the tile's rows and columns. -/
def recordOf (at' format d0 d1 stride rows cols : Nat) : List Byte :=
  leBytes 8 at' ++ leBytes 2 0x8001 ++ [BitVec.ofNat 8 (format + 16), 2#8] ++ leBytes 4 d0 ++ leBytes 4 d1 ++ leBytes 4 1 ++ leBytes 4 1 ++ leBytes 8 stride ++
    leBytes 8 0 ++ leBytes 8 0 ++ leBytes 1 rows ++ leBytes 1 cols ++ leBytes 2 0 ++ leBytes 8 0

/-- Handles 1 and 2 name tensors of two elements, handle 3 one of binary32 for a drain; slots 3 and 5 and accumulator 2 are claimed. -/
def tiles : State :=
  let s := bigPage base
  let s := putAt s 0x1040 (recordOf 0x10000 1 2 1 64 7 6)
  let s := putAt s 0x1080 (recordOf 0x20000 1 1 2 64 6 7)
  let s := putAt s 0x10C0 (recordOf 0x40000 5 2 1 512 7 7)
  let s := putAt s 0x10000 [3#8, 8#8]
  (claimedSlots [3, 5] (some 2) s).setW fun w => ({ w with
    scalars := scalarBank [(6, 1#32), (9, 2#32), (12, 3#32), (21, 1#32), (30, 77#32)] }).setFrag fun f => { f with mask := 0xFF#32, fmt := 0x1411#32 }

theorem witness_MatrixAcceptance :
    QueueRoom tiles ∧ tiles.precheck (.tfetch 4 6) = none ∧ (tiles.team.map fun t => claimed t.slotMap (scalarN tiles.w 4 0)) = some (some 3) ∧
      (match tiles.fetchRecord ⟨0, 0⟩ 1 (scalarN tiles.w 6 0) with
        | .ok r => decide (r.format = 1 ∧ 2 ^ r.rows * 2 ^ r.cols * elemBytes r.format ≤ 8192) && (match tiles.useScale ⟨0, 0⟩ 1 0 r with | .ok sc => sc.isNone | .error _ => false)
        | .error _ => false) = true ∧
      tiles.w.frag.fmt.toNat % 16 = 1 ∧ tiles.w.frag.fmt.toNat / 2 ^ 8 % 4 = 0 ∧ (tiles.team.map fun t => claimed t.accMap (scalarN tiles.w 4 0)) = some (some 2) ∧
      tiles.precheck (.accz 4) = none ∧ tiles.precheck (.drainv 4 8 30) = none ∧ tiles.w.leases = [] ∧ tiles.precheck (.drainmx 4 12 16) = none ∧
      (match tiles.drainCheck ⟨0, 0⟩ 1 (scalarN tiles.w 12 0) (scalarN tiles.w 16 0) tiles.w.frag.fmt with | .ok p => p.2.isNone | .error _ => false) = true ∧
      tiles.w.gang = 0#32 := by unfold QueueRoom; decide +kernel

/-- A record that the fetcher of core 0 holds is used although its page is no longer mapped; another is read and then held. -/
def cachedRecord : State :=
  let s : State := { tiles with cores := tiles.cores.map fun c => { c with records := [⟨1, 1, recordOf 0x10000 1 2 1 64 7 6⟩] } }
  { s with mem := s.mem.writeBytes 0x13000 (leBytes 8 0) }

theorem witness_MatrixAcceptance_records :
    (cachedRecord.heldRecord ⟨0, 0⟩ 1 1).isSome = true ∧ (match tiles.recordBytesAt 1 1 with | .ok _ => true | .error _ => false) = true ∧
      tiles.heldRecord ⟨0, 0⟩ 1 1 = none ∧ (tiles.core ⟨0, 0⟩).records.length ≤ 64 ∧
      (match cachedRecord.fetchRecord ⟨0, 0⟩ 1 1 with | .ok r => r.format == 1 | .error _ => false) = true ∧
      (match cachedRecord.fetchRecord ⟨0, 0⟩ 1 2 with | .ok _ => false | .error c => c == 0x11) = true ∧
      ((tiles.fetchReads ⟨0, 0⟩ 1 [1]).heldRecord ⟨0, 0⟩ 1 1) = some (recordOf 0x10000 1 2 1 64 7 6) := by decide +kernel

/-- Handle 4 names a tensor in tiles of 16,384 bytes, which take slots 3 and 5 from index 0. -/
def tilesWide : State := (putAt tiles 0x1100 (recordOf 0x10000 1 2 1 64 7 7)).setW fun w => w.writeS 40 4

theorem witness_MatrixAcceptance_two_slots :
    tilesWide.precheck (.tfetch 4 40) = none ∧ scalarN tilesWide.w 4 0 % 2 = 0 ∧ (tilesWide.team.map fun t => claimed t.slotMap (scalarN tilesWide.w 4 0 + 1)) = some (some 5) ∧
      (match tilesWide.fetchRecord ⟨0, 0⟩ 1 (scalarN tilesWide.w 40 0) with
        | .ok r => decide (r.format = 1 ∧ 8192 < 2 ^ r.rows * 2 ^ r.cols * elemBytes r.format ∧ 2 ^ r.rows * 2 ^ r.cols * elemBytes r.format ≤ 16384)
        | .error _ => false) = true ∧
      nextHas (exec (.tfetch 4 40) tilesWide) (fun t => t.ops.map (fun o => match o.work with | .tfetch ps .. => ps | _ => []) == [[3, 5]]) = true := by
  decide +kernel

/-- Warps 0 and 1 of the team with a gang value, latches of the team, and warp 0's turn. -/
def ganged (g : Word) (l : List Latch) : State :=
  let s := tiles.setW fun w => { w with gang := g }
  { s with latches := l, rest := [{ s.w with id := ⟨1, 1, 0, 1⟩ }] }

/-- The latch of a gang at which warp 1 has arrived with an instruction. -/
def latchOf (g : Word) (i : Instr) : Latch := ⟨⟨0, 0⟩, ⟨1, 1, 0⟩, g, [(1, i, 0)]⟩

/-- The instruction that the members meet at. -/
def meetAt : Instr := .mma 1 1 1 4 6 9

/-- No latch; one that still lacks warp 2; one whose members issued different instructions; one that warp 0 completes. -/
theorem witness_JointRendezvous :
    (jointOf meetAt).isSome = true ∧ QueueRoom (ganged 3 []) ∧ (ganged 3 []).precheck meetAt = none ∧ (ganged 3 []).w.gang ≠ 0#32 ∧
      (ganged 7 [latchOf 7 meetAt]).precheck meetAt = none ∧ 2 ∈ gangOf 7#32 ∧ (ganged 3 [latchOf 3 (.mma 1 1 0 4 6 9)]).precheck meetAt = none ∧
      gangOf 3#32 = [0, 1] ∧ (arrivedWarps (ganged 3 []) { latchOf 3 meetAt with arrived := [(1, meetAt, 0), (0, meetAt, 0)] }).map (·.id.warp) = [0, 1] ∧
      ((jointOf meetAt).any fun j => (ganged 3 []).team.any fun t =>
        match (ganged 3 []).jointWork t (ganged 3 []).w (ganged 3 []).warps j with | .ok _ => true | .error _ => false) = true := by
  unfold QueueRoom
  decide +kernel

/-- A latch of another gang value that shares warp 1. -/
theorem witness_JointRendezvous_clash :
    let s := ganged 3 [latchOf 6 meetAt]
    s.precheck meetAt = none ∧ gangOf 6#32 = [1, 2] ∧ s.w.stopped = false ∧ (s.grid.any fun g => g.status != 3) = true ∧
      nextHas (exec meetAt s) (fun t => t.latches == [] && t.warps.all (·.stopped)) = true := by decide +kernel

theorem test_rendezvous :
    [nextHas (exec meetAt (ganged 3 [])) (fun t => t.latches.map (·.gang) == [3#32] && t.ops == [] && t.w.frag.pc == 4#64),
      nextHas (exec meetAt (ganged 7 [latchOf 7 meetAt])) (fun t => t.latches.map (fun l => l.arrived.map (·.1)) == [[1, 0]] && t.ops == []),
      nextHas (exec meetAt (ganged 3 [latchOf 3 meetAt])) (fun t => t.latches == [] && t.ops.map (·.opcode) == [4] && t.warps.all fun w => w.frag.pc == 8#64)].all id
      = true := by decide +kernel

/-- The joint instructions by slot and by handle. -/
theorem witness_MatrixAcceptance_joint :
    ∀ i ∈ [Instr.mma 1 1 1 4 6 9, .mma 1 1 0 4 6 9, .mmag 1 1 0 4 6 9], ∃ j, jointOf i = some j ∧ tiles.precheck i = none ∧
      (tiles.team.any fun t => match tiles.jointWork t tiles.w [tiles.w] j with | .ok _ => true | .error _ => false) = true := by
  simp only [List.forall_mem_cons, List.not_mem_nil, false_imp_iff, implies_true, and_true]
  exact ⟨⟨_, rfl, by decide +kernel⟩, ⟨_, rfl, by decide +kernel⟩, _, rfl, by decide +kernel⟩

theorem test_operations_enter :
    [nextHas (exec (.tfetch 4 6) tiles) (fun t => t.ops.map (·.opcode) == [3]), nextHas (exec (.drainv 4 8 30) tiles) (fun t => t.w.leases.map (·.1) == [8, 9, 10, 11]),
      nextHas (exec (.mma 1 1 1 4 6 9) tiles) (fun t => t.ops.map (·.opcode) == [4])].all id = true := by decide +kernel

/-- What the queue of core 0 says of operation 1 in a state. -/
def performable (s : State) (p : MatrixOp → Bool) : Bool :=
  (s.ops.find? fun o => o.id == 1 && o.core.n == 0).any fun o => s.opReady o && p o && s.stores.isEmpty &&
    ((List.finRange 16).all fun i => !(s.core o.core).slots[i].release) && ((List.finRange 4).all fun i => !(s.core o.core).accs[i].release)

theorem witness_MatrixOperationsArePerformed :
    performable (after (.accz 4) tiles) (fun o => o.work == .accz 2) = true ∧
      performable (after (.drainv 4 8 30) tiles) (fun o => o.work == .drainv 2 77 8) = true ∧ (after (.drainv 4 8 30) tiles).w.present = true ∧
      performable (after (.tfetch 4 6) tiles) (fun o => match o.work with
        | .tfetch [3] r row col sc => (match (after (.tfetch 4 6) tiles).fetchTile ⟨.fetcher o.core, o.ctx, false⟩ 0 r row col sc with | .ok _ => true | .error _ => false)
        | _ => false) = true := by decide +kernel

theorem witness_MatrixOperationsArePerformed_multiply :
    performable (after (.mma 1 1 1 4 6 9) tiles) (fun o => match o.work with
      | .multiply 2 true x bs m => (match (after (.mma 1 1 1 4 6 9) tiles).readOperands o x bs m with | .ok _ => true | .error _ => false)
      | _ => false) = true := by decide +kernel

theorem witness_MatrixOperationsArePerformed_drain :
    performable (after (.drainmx 4 12 16) tiles) (fun o => match o.work with
      | .drainmx 2 r row col none => r.rot == 0 && ((after (.drainmx 4 12 16) tiles).engineWriteFault ⟨.fetcher o.core, o.ctx, false⟩
          ((r.writes row col (List.replicate 128 (List.replicate 128 0))).map (·.1))).isNone
      | _ => false) = true ∧ (after (.drainmx 4 12 16) tiles).l1 = [] := by decide +kernel

/-- The same drain where its tensor lies in the host's memory: the context takes a checkpoint. -/
def hostDrain : State := let s := after (.drainmx 4 12 16) tiles; { s with mem := s.mem.writeBytes 0x13000 (leBytes 8 0x200163) }

theorem witness_MatrixOperationsArePerformed_host :
    performable hostDrain (fun o => match o.work with
      | .drainmx 2 r row col none => (hostDrain.engineWriteFault ⟨.fetcher o.core, o.ctx, false⟩ ((r.writes row col (List.replicate 128 (List.replicate 128 0))).map (·.1))).isNone
          && (hostDrain.engineLines ⟨.fetcher o.core, o.ctx, false⟩ .engineWrite ((r.writes row col (List.replicate 128 (List.replicate 128 0))).map (·.1))).any fun ha => decide (2 ^ 52 ≤ ha)
      | _ => false) = true ∧ (hostDrain.ctx? 1).any (fun c => !c.savedOut) = true := by decide +kernel

/-- A tile batch of one finished operation. -/
def batched : State := { (after .tcommit (after (.accz 4) tiles)) with ops := (after (.accz 4) tiles).ops.map fun o => { o with done := true } }

theorem witness_MatrixOperationsArePerformed_batch :
    batched.w.tileBatches = [⟨[1]⟩] ∧ (∀ o ∈ batched.ops, o.id = 1 → o.done = true) ∧
      nextHas (exec (.tileBatchComplete ⟨1, 1, 0, 0⟩) batched) (fun t => t.w.tileBatches == [] && t.ops == []) = true := by decide +kernel

theorem test_drainv_performed :
    nextHas (exec (.drainvPerform 0 1) (after (.drainv 4 8 30) tiles)) (fun t => (t.w.readV 8)[(0 : Fin 32)] == 0x3F800000#32 && (t.w.readV 12)[(0 : Fin 32)] == 0#32)
      = true := by decide +kernel

/-- Two-element tensors at handles 1 and 2, a team with a resident scratchpad page and barriers. -/
def copier : State :=
  let s := bigPage base
  let s := putAt s 0x1040 (recordOf 0x10000 1 2 1 64 4 4)
  let s := putAt s 0x10000 [3#8, 8#8]
  let s : State := { s with teams := s.teams.map fun t => { t with
      spadsz := 8192, barriers := [⟨2, 0, 0⟩, ⟨1, 0, 65535⟩, ⟨0, 0, 0⟩, ⟨3, 1, 7⟩]
      pages := [⟨0, .resident, (List.range 2048).map fun i => BitVec.ofNat 8 (i * 3 + 5), false, true, [], none, 0, none⟩] } }
  s.setW fun w => ({ w with
      scalars := scalarBank [(4, 1#32), (13, 0#32), (16, 256#32), (17, 128#32), (21, 1#32), (25, 70000#32)]
      vectors := vectorBank [(6, fun t => BitVec.ofNat 32 (0x10000 + 64 * t))] }).setFrag fun f => { f with mask := 1#32, fmt := 0x1411#32 }

/-- A copy from a tensor into the scratchpad, one back, and a gather. -/
theorem witness_CopiesCommitsPrefetches :
    copier.precheck (.cpy 0 0 30 4 12) = none ∧ (match copier.copySides 0 4 12 with | .ok p => p.2.spadRange.isSome | .error _ => false) = true ∧ copier.copies = [] ∧
      copier.precheck (.cpyg 0 0 30 6 16) = none ∧ copier.w.leases = [] ∧ (match copier.gatherSides 0 6 16 with | .ok _ => true | .error _ => false) = true ∧
      copier.precheck .tcommit = none ∧ copier.w.tileBatches.length < 15 ∧ copier.precheck .cpcommit = none ∧ copier.w.copyBatches.length < 15 ∧
      copier.w.present = true ∧ copier.precheck (.pft 4) = none ∧ copier.precheck (.pref 0 6) = none ∧ copier.precheck (.pref 1 6) = none := by decide +kernel

theorem test_copy_enters :
    [nextHas (exec (.cpy 0 0 30 4 12) copier) (fun t => t.copies.length == 1 && t.w.tokens.map (·.1) == [30]),
      nextHas (exec .cpcommit (after (.cpy 0 0 30 4 12) copier)) (fun t => t.w.copyBatches == [⟨[1]⟩] && t.w.openCopies == [])].all id = true := by decide +kernel

/-- A copy that is ready and whose data can be read, and the same copy where the frame of its source is no longer the context's. -/
def copying : State := after (.cpy 1 1 20 12 4) copier

theorem witness_CopiesComplete :
    (copying.copies.find? (fun x => x.id == 1)).any (fun c => copying.copyReady c && (match copying.team? c.warp.teamId with
      | some t => (match copying.copyData c t with
        | .ok d => (copying.engineWriteFault ⟨.engine c.core.part c.engine, c.warp.ctx, false⟩ (d.global.map (·.1))).isNone && d.spad.isEmpty
        | .error _ => false)
      | none => false)) = true ∧ copying.stores = [] := by decide +kernel

/-- The same copy into a tensor in the host's memory: the context takes a checkpoint. -/
def hostCopy : State := { copying with mem := copying.mem.writeBytes 0x13000 (leBytes 8 0x200163) }

theorem witness_CopiesComplete_host :
    (hostCopy.copies.find? (fun x => x.id == 1)).any (fun c => hostCopy.copyReady c && (match hostCopy.team? c.warp.teamId with
      | some t => (match hostCopy.copyData c t with
        | .ok d => (hostCopy.engineWriteFault ⟨.engine c.core.part c.engine, c.warp.ctx, false⟩ (d.global.map (·.1))).isNone &&
            ((hostCopy.engineTouch ⟨.engine c.core.part c.engine, c.warp.ctx, false⟩ c.src.addresses).engineLines ⟨.engine c.core.part c.engine, c.warp.ctx, false⟩
              .engineWrite (d.global.map (·.1))).any fun ha => decide (2 ^ 52 ≤ ha)
        | .error _ => false)
      | none => false)) = true ∧ (hostCopy.ctx? 1).any (fun x => !x.savedOut) = true ∧
      nextHas (exec (.copyPerform 1) hostCopy) (fun t => (t.ctx? 1).any fun y => y.paused && y.undo == [] && y.undoGone == []) = true := by decide +kernel

/-- A copy into the team's resident page. -/
theorem witness_CopiesComplete_scratchpad :
    ((after (.cpy 0 0 30 4 12) copier).copies.find? (fun x => x.id == 1)).any (fun c =>
      let s := after (.cpy 0 0 30 4 12) copier
      s.copyReady c && (match s.team? c.warp.teamId with
        | some t => (t.page 0).st == .resident && (t.page 0).bytes.length == 2048 && (match s.copyData c t with
          | .ok d => !d.spad.isEmpty && d.global.isEmpty && d.spad.all fun q => decide (q.1 + q.2.length ≤ 2048)
          | .error _ => false)
        | none => false)) = true := by decide +kernel

theorem witness_CopiesComplete_fault :
    ((after (.cpy 0 0 30 4 12) copier).copies.find? (fun x => x.id == 1)).any (fun c =>
      let s : State := { (after (.cpy 0 0 30 4 12) copier) with owners := [⟨1, true, false, 1, false⟩] }
      s.copyReady c && (match s.team? c.warp.teamId with
        | some t => (match s.copyData c t with | .ok _ => false | .error _ => true)
        | none => false)) = true := by decide +kernel

/-- A copy that has been performed and arrives at barrier 1, whose phase is 65,535. -/
def copied : State := { copying with copies := copying.copies.map fun c => { c with performed := true } }

theorem witness_CopiesComplete_arrival :
    (copied.copies.find? (fun x => x.id == 1 && x.performed)).any (fun c => c.barrier == some 1 && (copied.warp? c.warp).isSome &&
      (copied.team? c.warp.teamId).any fun t => t.barriers[1]? == some ⟨1, 0, 65535⟩) = true ∧
      nextHas (exec (.copyComplete 1) copied) (fun t => t.copies == [] && (t.team.bind fun x => x.barriers[1]?) == some ⟨1, 0, 0⟩) = true := by decide +kernel

/-! ### Waiting, fences, barriers (R240 to R244) -/

/-- A load and a store outstanding, a batch of each kind. -/
def busy (loads stores batches : Nat) : State :=
  let s := base.setW fun w => { w with
    loads := (List.range loads).map fun i => ⟨i, 4, 4, 0, [], .cached, none, 0, 0, false, none, 0, []⟩
    copyBatches := List.replicate batches ⟨[1]⟩, tileBatches := List.replicate batches ⟨[1]⟩ }
  { s with stores := (List.range stores).map fun i => ⟨i, s.w.id, s.w.core, 4, [], false, false, false, 0, [], 0⟩ }

theorem witness_WaitsAndFences :
    (busy 2 2 2).precheck (.wait 2 2 2 2) = none ∧ (busy 2 2 2).w.loads.length ≤ 2 ∧ (busy 2 2 2).outStores (busy 2 2 2).w ≤ 2 ∧ (busy 2 2 2).w.copyBatches.length ≤ 2 ∧
      (busy 2 2 2).precheck (.wait 1 63 15 15) = none ∧ ¬ (busy 2 2 2).w.loads.length ≤ 1 ∧ base.precheck (.fence 3 0) = none ∧ base.precheck (.fence 3 1) = none ∧
      base.precheck (.fence 3 3) = none ∧ base.outStores base.w = 0 ∧ base.w.loads = [] ∧ base.w.present = true ∧ (busy 0 1 0).outStores (busy 0 1 0).w ≠ 0 ∧
      (busy 0 1 0).precheck (.fence 2 1) = none ∧ (busy 1 0 0).w.loads ≠ [] ∧ (busy 1 0 0).precheck (.fence 1 1) = none := by decide +kernel

theorem test_waits :
    [nextHas (exec (.wait 2 2 2 2) (busy 2 2 2)) (fun t => t.w.frag.pc == 8#64), nextHas (exec (.wait 1 63 15 15) (busy 2 2 2)) (fun t => t.w.hold[(0 : Fin 2)] == some .waitCount),
      nextHas (exec (.fence 2 1) (busy 0 1 0)) (fun t => t.w.hold[(0 : Fin 2)] == some .storeCount), nextHas (exec (.fence 3 3) base) (fun t => t.w.awaitCheckpoint)].all id
      = true := by decide +kernel

/-- A barrier that can be initialised to 1, one that has arrivals, a count above 65,535, a barrier at its last arrival, the phase seen. -/
theorem witness_Barriers :
    copier.team.isSome = true ∧ copier.precheck (.bari 0 4) = none ∧ (copier.team.bind fun t => t.barriers[0]?) = some ⟨2, 0, 0⟩ ∧ (copier.w.readS 4).toNat = 1 ∧
      (copier.team.bind fun t => t.barriers[3]?) = some ⟨3, 1, 7⟩ ∧ 65535 < (copier.w.readS 25).toNat ∧ (copier.team.bind fun t => t.barriers[4]?) = none ∧
      (copier.team.bind fun t => t.barriers[1]?) = some ⟨1, 0, 65535⟩ ∧ (copier.team.bind fun t => t.barriers[2]?) = some ⟨0, 0, 0⟩ ∧
      copier.precheck (.bara 1 4) = none ∧ copier.precheck (.barw 0 0) = none ∧ low32 0 = copier.w.readS 0 ∧ copier.precheck (.barw 1 0) = none ∧
      copier.precheck (.bart 3 4 0) = none ∧ copier.precheck (.bara 2 4) = none := by decide +kernel

theorem test_barriers :
    [nextHas (exec (.bara 1 20) copier) (fun t => t.w.readS 20 == 65535#32 && (t.team.bind fun x => x.barriers[1]?) == some ⟨1, 0, 0⟩),
      nextHas (exec (.bari 0 4) copier) (fun t => (t.team.bind fun x => x.barriers[0]?) == some ⟨1, 0, 0⟩), nextHas (exec (.bart 3 20 0) copier) (fun t => t.w.readS 20 == 1#32),
      nextHas (exec (.barw 0 0) copier) (fun t => t.w.hold[(0 : Fin 2)] == some .barrier)].all id = true := by decide +kernel

end Sys2Proof.Tests
end

