-- ==== Sys2Proof/Tests/Grids.lean ====
section
/-!
SUPPORT. States that meet the hypotheses of the statements about nested grids, work graphs, tasks, switch points and mapping, with
what the rules say of the next state there.
-/

namespace Sys2Proof.Tests

set_option Elab.async false

open Sys2Proof.Machine
open Sys2Proof.Claims

/-! ### Launches and joins (R245, R246) -/

/-- The bytes of a kernel header (R389), of its file header's fields (R388) and of a variant entry (R390), at the addresses 0x2000, 0x2200, 0x2100. -/
def kernelBytes : List Byte :=
  leBytes 4 0x5244484B ++ leBytes 1 1 ++ leBytes 1 1 ++ leBytes 1 0 ++ leBytes 1 0 ++ leBytes 8 0 ++ leBytes 8 0x2200 ++ leBytes 8 0x2100 ++ List.replicate 32 0#8
def variantBytes : List Byte :=
  leBytes 8 0x44 ++ leBytes 8 0 ++ leBytes 2 16 ++ leBytes 2 2 ++ leBytes 4 2048 ++ leBytes 4 64 ++ leBytes 2 3 ++ leBytes 2 0 ++ List.replicate 32 0#8

/-- Warp 0 of a context with a kernel, a free frame of the smallest class at 0x3000, and eight team slots; s4 holds the number of teams, s6 the size. -/
def launcher (teams size : Word) : State :=
  let s := putAt (putAt (bigPage base) 0x2000 kernelBytes) 0x2100 variantBytes
  let s : State := { s with ctxs := s.ctxs.map fun c => { c with framePool := some ⟨0x3000, [1], [[0x3000]]⟩, teamSlots := 8 } }
  s.setW fun w => { w with scalars := scalarBank [(4, teams), (6, size), (8, 0x2000#32)] }

/-- No teams, a frame too large, no kernel, teams that never fit together, no frame, and a grid. -/
theorem witness_LaunchesAndJoins :
    (launcher 3 192).precheck (.launch 8 4 6 0) = none ∧ (launcher 3 192).w.id.warp = 0 ∧ (launcher 3 192).w.level < 9 ∧ scalarN (launcher 3 192).w 4 0 = 3 ∧
      scalarN (launcher 0 192).w 4 0 = 0 ∧ 65472 < scalarN (launcher 3 65473).w 6 0 ∧ scalarN (launcher 3 192).w 6 0 ≤ 65472 ∧
      ((launcher 3 192).kernel 1 (pairOf (launcher 3 192).w 8).toNat).isSome = true ∧ ((launcher 3 192).kernel 1 (pairOf (launcher 3 192).w 30).toNat) = none ∧
      (((launcher 9 192).kernel 1 0x2000).any fun k => (launcher 9 192).neverPlaced 0 1 9 k.variants) = true ∧
      (launcher 3 193).freeFrame 1 (frameClass 193) = none ∧ (launcher 3 192).freeFrame 1 (frameClass 192) = some 0x3000 ∧ (launcher 3 192).grid.isSome = true ∧
      (launcher 3 192).team.isSome = true ∧ (launcher 3 192).outStores (launcher 3 192).w = 0 ∧ (launcher 3 192).w.present = true ∧
      (launcher 3 192).grids.length < 2 ^ 24 - 2 := by decide +kernel

theorem test_launch :
    [nextHas (exec (.launch 8 4 6 0) (launcher 3 192)) (fun t => t.w.readS 4 == 2#32 && t.grids.map (·.id) == [1, 2] && t.grids.map (·.children) == [1, 0] &&
        t.grids.map (·.teams) == [1, 3] && t.mem.readNat 0x203008 8 == 0x2000 && (t.team.map fun x => x.joinSet.map (·.grid)) == some [2] && t.w.awaitCheckpoint),
      nextHas (exec (.launch 8 4 6 0) (launcher 0 192)) (fun t => t.w.readS 4 == 0x80000003#32),
      nextHas (exec (.launch 8 4 6 0) (launcher 3 65473)) (fun t => t.w.readS 4 == 0x80000004#32),
      nextHas (exec (.launch 30 4 6 0) (launcher 3 192)) (fun t => t.w.readS 4 == 0x80000005#32),
      nextHas (exec (.launch 8 4 6 1) (launcher 9 192)) (fun t => t.w.readS 4 == 0x80000006#32),
      nextHas (exec (.launch 8 4 6 0) (launcher 3 193)) (fun t => t.w.readS 4 == 0x80000001#32)].all id = true := by decide +kernel

/-- A team that joins these children. -/
def joiner (l : List JoinChild) : State := { base with teams := base.teams.map fun t => { t with joinSet := l } }

/-- Two children that failed, the second one first, and one that was killed. -/
def failedChildren : List JoinChild := [⟨2, some (0x11, 0x0D#8, 9)⟩, ⟨3, some (0x11, 0x0E#8, 5)⟩, ⟨4, some (0x12, 0#8, 2)⟩, ⟨5, some (0, 0#8, 1)⟩]

theorem witness_LaunchesAndJoins_join :
    (joiner failedChildren).precheck (.joinw 20) = none ∧ ((joiner failedChildren).team.any fun t => t.joinSet == failedChildren) = true ∧
      (∀ x ∈ failedChildren, x.outcome.isSome = true) ∧ (joiner failedChildren).w.id.warp = 0 ∧
      (∀ y ∈ failedChildren, ∀ o, y.outcome = some o → o.1 = 0x11 → y = ⟨3, some (0x11, 0x0E#8, 5)⟩ ∨ 5 < o.2.2) ∧
      ((joiner [⟨2, none⟩]).team.any fun t => t.joinSet.any fun x => x.outcome.isNone) = true := by
  refine ⟨by decide +kernel, by decide +kernel, by decide, by decide +kernel, ?_, by decide +kernel⟩
  simp [failedChildren]

theorem test_joinw :
    [nextHas (exec (.joinw 20) (joiner failedChildren)) (fun t => t.w.readS 20 == 0x0003000E#32 && (t.team.map (·.joinSet)) == some []),
      nextHas (exec (.joinw 20) (joiner [⟨2, none⟩])) (fun t => t.w.hold[(0 : Fin 2)] == some .children)].all id = true := by decide +kernel

/-! ### Graphs and tasks (R247 to R249, R315, R318) -/

/-- A context with node 5, which has `n` records, and a task table at 0x4000 whose task 1 counts `count` predecessors. -/
def graph (n count : Nat) : State :=
  let s := putAt (bigPage base) 0x4020 (List.replicate 16 0#8 ++ leBytes 2 count ++ leBytes 1 3 ++ leBytes 1 0)
  let s : State := { s with ctxs := s.ctxs.map fun c => { c with
    nodes := [{ n := 5, kernel := 0x2000, frame := 256, timerUs := 0, key := none, level := 0, due := [], records := List.replicate n (0, List.replicate 16 0#8) }], taskTable := some (0x4000, 2, 0) } }
  s.setW fun w => ({ w with scalars := scalarBank [(4, 5#32), (6, 1#32)], vectors := vectorBank [(8, fun t => BitVec.ofNat 32 (t + 1))] }).setFrag fun f => { f with mask := 3#32 }

theorem witness_GraphsAndTasks :
    edges.precheck (.lxrd 1 20) = none ∧ edges.w.level = 1 ∧ edges.precheck (.lxrd 2 20) = none ∧ (graph 254 2).precheck (.enq 1 8 4) = none ∧ (graph 254 2).w.leases = [] ∧
      (graph 254 2).outStores (graph 254 2).w = 0 ∧ (graph 254 2).w.present = true ∧
      (((graph 254 2).ctx? 1).any fun x => (x.nodes.find? fun y => y.n == scalarN (graph 254 2).w 4 0).any fun y => y.records.length + 2 == 256) = true ∧
      (((graph 256 2).ctx? 1).any fun x => (x.nodes.find? fun y => y.n == scalarN (graph 256 2).w 4 0).any fun y => y.records.length == 256) = true ∧
      active (graph 254 2).w ≠ [] := by decide +kernel

/-- A task's count at 2, 1 and 0. -/
theorem witness_GraphsAndTasks_tasks :
    (graph 0 2).precheck (.depdec 6) = none ∧ ((graph 0 2).ctx? 1).any (fun x => x.taskTable == some (0x4000, 2, 0)) = true ∧ scalarN (graph 0 2).w 6 0 = 1 ∧
      (∀ n ∈ [0, 1, 2], (match (graph 0 n).unitRead 1 (0x4000 + 32) 32 with | .ok b => leAt b 16 2 == n | .error _ => false) = true) ∧
      ((graph 0 2).unitWrite 1 0x4030 (leBytes 2 1 ++ leBytes 1 3 ++ leBytes 1 0)).2 = 0#8 ∧ (graph 0 2).l1 = [] := by decide +kernel

theorem test_graphs_and_tasks :
    [nextHas (exec (.lxrd 1 20) edges) (fun t => t.w.readS 20 == 0x1100#32 && t.w.readS 21 == 0#32),
      nextHas (exec (.enq 1 8 4) (graph 254 2)) (fun t => t.w.readP 1 == 0#32 && (t.ctxs.map fun c => c.nodes.map fun y => (y.records.drop 254).map (·.2)) ==
        [[[leBytes 4 1 ++ List.replicate 12 0#8, leBytes 4 2 ++ List.replicate 12 0#8]]]),
      nextHas (exec (.enq 1 8 4) (graph 256 2)) (fun t => t.w.readP 1 == 3#32),
      nextHas (exec (.depdec 6) (graph 0 2)) (fun t => t.mem.readNat 0x204030 2 == 1 && t.ctxs.map (·.ready) == [[]]),
      nextHas (exec (.depdec 6) (graph 0 1)) (fun t => t.mem.readNat 0x204030 4 == 0x02030000 && t.ctxs.map (·.ready) == [[(1, 3, 0)]]),
      nextHas (exec (.depdec 6) (graph 0 0)) (fun t => t.w.stopped)].all id = true := by decide +kernel

/-! ### Switch points and mapping (R252, R254) -/

/-- A team whose two variants declare point 7, with a request. -/
def switching (r : Option SwitchReq) : State :=
  let v : Variant := ⟨4#64, 16, 1, 0, 64, 0, [⟨7, false, 0x44#64, [], []⟩]⟩
  let s : State := { base with
    grids := base.grids.map fun g => { g with variants := [v, v] }
    teams := base.teams.map fun t => { t with request := r } }
  s.setW fun w => { w with openOps := [3] }

/-- A request that may be met at any point, made now. -/
def request : SwitchReq := { candidate := none, moved := false, target := 1, lean := false, posted := 0, warps := [0], point := none, arrived := [] }

theorem witness_SwitchPointsAndMapping :
    (switching none).precheck (.swpt 7) = none ∧ ((switching none).team.bind fun t => (switching none).variantOf t t.variant).isSome = true ∧
      ((switching none).team.bind fun t => ((switching none).variantOf t t.variant).bind fun v => v.point 6) = none ∧
      ((switching none).team.bind fun t => ((switching none).variantOf t t.variant).bind fun v => v.point 7).isSome = true ∧
      ((switching none).team.any fun t => t.request.isNone) = true ∧
      ((switching (some request)).team.any fun t => ((switching (some request)).variantOf t 0).any fun old =>
        ((switching (some request)).variantOf t 1).any fun new => requestApplies old new 7) = true ∧
      (switching (some request)).w.frag.mask = ~~~(switching (some request)).w.exited ∧ (switching (some request)).w.present = true := by decide +kernel

theorem test_swpt :
    [nextHas (exec (.swpt 6) (switching none)) (fun t => t.w.stopped), nextHas (exec (.swpt 7) (switching none)) (fun t => t.w.frag.pc == 8#64),
      nextHas (exec (.swpt 7) (switching (some request))) (fun t => t.w.atSwitch == some 7 && t.w.openOps == [] &&
        (t.team.bind fun x => x.request.map fun r => r.arrived) == some [0])].all id = true := by decide +kernel

/-- A page that is mapped, and one that is not although its tables are there, with a pool of one free frame at home 0x20000. -/
def mapping (va : Word) : State :=
  let s := mapped base
  let s : State := { s with
    owners := ⟨2, true, false, 1, false⟩ :: s.owners
    ctxs := s.ctxs.map fun c => { c with pagePools := [{ n := 3, write := true, exec := false, super := false, frames := [0x20000] }] } }
  s.setW fun w => { w with super := true, scalars := scalarBank [(4, va)] }

theorem witness_SwitchPointsAndMapping_map :
    (mapping 0x1FFF).precheck (.mappg 4 3) = none ∧ (pairOf (mapping 0x1FFF).w 4).toNat = 0x1FFF ∧
      (match (mapping 0x1FFF).walk 1 0x1FFF with | .ok _ => true | .error _ => false) = true ∧ ((mapping 0x1FFF).ctx? 1).isSome = true ∧
      (mapping 0x2000).precheck (.mappg 4 3) = none ∧ (match (mapping 0x2000).walk 1 0x2000 with | .ok _ => false | .error c => c == 0x08#8) = true ∧
      (((mapping 0x2000).ctx? 1).any fun x => (x.pagePools.find? fun y => y.n == (3#7).toNat).any fun q => q.frames == [0x20000]) = true ∧
      (mapping 0x2000).mem.wf = true ∧ (mapPlan (mapping 0x2000) 0x2000 2 5 0x10000 false [0x20000]).map (fun p => (p.1.map (·.1), p.2)) = some ([0x14010], []) ∧
      (mapping 0x2000).storeCode 1 0x20000 = 0#8 ∧ (mapping 0x2000).storeCode 1 0x14010 = 0#8 ∧
      (∀ k < 64, (mapping 0x2000).storeCode 1 (0x20000 + 64 * k) = 0#8) ∧ (mapping 0x2000).owns 1 0x20000 = true ∧ (mapping 0x2000).owns 1 0x14010 = true := by decide +kernel

theorem test_mappg :
    nextHas (exec (.mappg 4 3) (mapping 0x1FFF)) (fun t => t.w.frag.pc == 8#64 && t.mem == (mapping 0x1FFF).mem) = true ∧
      mapPlan (mapping 0x2000) 0x2000 2 5 0x10000 false [0x20000] = some ([(0x14010, 0x20003)], []) ∧
      mapPlan (mapping 0x2000) 0x2000 2 5 0x10000 false [2 ^ 52 + 0x20005] = some ([(0x14010, 0x20003)], []) := by decide +kernel

end Sys2Proof.Tests
end

