-- ==== Sys2Proof/Tests/Events.lean ====
section
/-!
SUPPORT. States that meet the hypotheses of the statements about the events of warps, pages, checkpoints, turns and teams, with what
the rules say of the next state there.
-/

namespace Sys2Proof.Tests

set_option Elab.async false

open Sys2Proof.Machine
open Sys2Proof.Claims

/-! ### Warps and fragments (R16, R19 to R23, R33, R264) -/

/-- The warp and a second one of its shuttle that is pending. -/
def two (f g : Warp → Warp) : State :=
  let s := base.setW f
  { s with clock := 100, rest := [g { base.w with id := ⟨1, 1, 0, 1⟩, active := false, pendingSince := 3 }] }

/-- The first warp waits at a switch point, or sleeps until 300. -/
def heldTwo : State := two (fun w => { w with atSwitch := some 7, yielded := #v[true, false], count := 50 }) id
def asleep : State := two (fun w => { w with sleepUntil := some 300 }) id

/-- One of two fragments at its join 0x40, under a record that counts `count`. -/
def joining (count : Nat) : State := (spiller 0 false).setW fun w => { w with
  split := w.split.set 2 (.record (some 5) 0x40#64 0xFFFF#32 7#32 count), exited := 1#32
  slots := #v[⟨.live, ⟨0x40, 0xFF, 3, some 2, 0⟩⟩, ⟨.live, ⟨8, 0xFF00, 3, some 2, 0⟩⟩] }

/-- A fragment as an entry holds it. -/
def spilled : Fragment := ⟨0x44#64, 0xF0F0#32, 0x1FFFF#32, some 63, 0⟩

/-- The warp of `spiller` with the entry of that fragment in its private memory, which the core's L1 holds; `reading` says that slot 1 reads it. -/
def spillState (reading : Bool) : State :=
  let s := spiller 0 false
  let s : State := { s with
    l1 := [⟨⟨0, 0⟩, 1, 0x200400, (splitBytes (.spilled spilled) none) ++ List.replicate 48 0#8, true, false, false⟩], clock := 5000 }
  s.setW fun w => { w with
    split := w.split.set 0 (.spilled spilled)
    spill := if reading then #v[[], []] else #v[[0], []]
    slots := if reading then w.slots.set 1 ⟨.reading 0, Fragment.none⟩ else w.slots }

/-! ### Pages, blocks, retirement (R82 to R84, R102, R264) -/

/-- A warp that waits for page 1 of its team's scratchpad. -/
def paging : State :=
  let s : State := { base with teams := base.teams.map fun t => { t with spadsz := 4096 } }
  s.setW fun w => { w with hold := #v[some (.pageIn [1]), none] }

/-- Code at virtual 0x1020, executable, not yet in the instruction buffer. -/
def fetching : State :=
  let s : State := { mapped base with mem := ((mapped base).mem.writeBytes 0x14008 (leBytes 8 0x200007)).writeBytes 0x200024 [1#8, 2#8, 3#8, 4#8] }
  s.setW fun w => w.setFrag fun f => { f with pc := 0x1024#64 }

/-- A warp whose threads have all exited, in a team of two. -/
def finishedWarp : State :=
  let s : State := { base with teams := base.teams.map fun t => { t with warps := 2 } }
  s.setW fun w => { w with exited := 0xFFFFFFFF#32, slots := Vector.replicate 2 ⟨.empty, Fragment.none⟩ }

theorem witness_WarpsExchange :
    (heldTwo.warp? ⟨1, 1, 0, 0⟩).isSome = true ∧ (heldTwo.nextPending ⟨0, 0⟩ 0).map (·.id) = some ⟨1, 1, 0, 1⟩ ∧ heldTwo.w.active = true ∧
      heldTwo.longLatency heldTwo.w = true ∧ asleep.w.sleepUntil = some 300 ∧ ((asleep.ctx? 1).any fun c => !c.savedOut) = true := by decide +kernel

theorem witness_WarpsExchange_activation :
    let s := two (fun w => { w with active := false, pendingSince := 9 }) id
    (∀ x ∈ s.warps, x.active = false) ∧ (s.nextPending ⟨0, 0⟩ 0).map (·.id) = some ⟨1, 1, 0, 1⟩ ∧
      nextHas (exec (.warpActivation ⟨1, 1, 0, 1⟩) s) (fun t => t.warps.map (·.active) == [false, true]) = true := by decide +kernel

theorem test_exchange :
    nextHas (exec (.warpExchange ⟨1, 1, 0, 0⟩) heldTwo) (fun t => t.warps.map (·.active) == [false, true] && t.w.yielded == #v[false, false]) = true ∧
      nextHas (exec (.exchangeCountExpiry ⟨1, 1, 0, 0⟩) heldTwo) (fun t => t.clock == 16434 && t.warps.map (·.active) == [false, true]) = true ∧
      nextHas (exec (.sleepExpiry ⟨1, 1, 0, 0⟩) asleep) (fun t => t.clock == 300 && t.w.sleepUntil == none) = true := by decide +kernel

/-- Counts 2 and 1 at the join; thread 0 has exited. -/
theorem witness_FragmentsMeet :
    (joining 2).w.super = false ∧ (joining 2).w.stopped = false ∧ (joining 2).w.slots[(0 : Fin 2)].st = .live ∧
      (joining 2).w.slots[(0 : Fin 2)].frag.record = some 2 ∧ (joining 2).w.slots[(0 : Fin 2)].frag.pc = 0x40#64 ∧
      (joining 2).w.split[2]? = some (.record (some 5) 0x40#64 0xFFFF#32 7#32 2) ∧ (joining 1).w.split[2]? = some (.record (some 5) 0x40#64 0xFFFF#32 7#32 1) ∧
      (∀ q : Fin 2, (joining 2).w.spill[q] = []) ∧ (∀ l : Fin 4, (joining 2).w.loops[l].live = false) ∧ 0xFFFF#32 &&& ~~~(joining 1).w.exited ≠ 0#32 := by
  decide +kernel

theorem spilled_fits : Fits spilled := ⟨by decide, by decide, by decide, by simp [spilled]⟩

/-- The entry of a spilled fragment can be read back, and written. -/
theorem witness_FragmentsMeet_spill :
    (spillState true).w.slots[(1 : Fin 2)].st = .reading 0 ∧
      ((spillState true).privRead (spillState true).w ((spillState true).w.entryVa 0) 16).2 = (0#8, splitBytes (.spilled spilled) none) ∧
      (spillState false).w.spill[(0 : Fin 2)] = [0] ∧ (spillState false).w.olderSlot 0 = some 0 ∧ (spillState false).stores = [] ∧ (spillState false).w.loads = [] ∧ (spillState false).w.super = false ∧
      (spillState false).privWriteCode (spillState false).w ((spillState false).w.entryVa 0) 16 = 0#8 := by decide +kernel

/-- Nothing delays the entry's read and the rotation's write, at the time of the rotation. -/
theorem witness_FragmentsMeet_rotation :
    let s := spillState false
    let u := s.passTo (s.clock + (2048 - s.w.rotation[(0 : Fin 2)]))
    (spillState true).privWaits (spillState true).w .load [⟨0, (spillState true).w.entryVa 0, 0, 0, 16⟩] = none ∧
      s.privWaits s.w .store [⟨0, s.w.entryVa 0, 0, 0, 16⟩] = none ∧
      ((u.privDrain s.w .store [⟨0, s.w.entryVa 0, 0, 0, 16⟩]).privRead s.w (s.w.entryVa 0) 16).2 = (0#8, splitBytes (.spilled spilled) none) ∧
      (s.team? ⟨1, 1, 0⟩).any (fun t => t.st == .running) = true := by decide +kernel

theorem test_fragments :
    nextHas (exec (.fragmentArrival ⟨1, 1, 0, 0⟩ 0) (joining 1)) (fun t => t.w.slots[(0 : Fin 2)].frag.mask == 0xFFFE#32 && t.w.slots[(0 : Fin 2)].frag.record == some 5) = true ∧
      nextHas (exec (.fragmentArrival ⟨1, 1, 0, 0⟩ 0) (joining 2)) (fun t => t.w.slots[(0 : Fin 2)].st == .empty && t.w.slots[(1 : Fin 2)].st == .live) = true ∧
      nextHas (exec (.spillEntryRead ⟨1, 1, 0, 0⟩ 1) (spillState true)) (fun t => t.w.slots[(1 : Fin 2)].frag.mask == 0xF0F0#32 && t.w.slots[(1 : Fin 2)].frag.pc == 0x44#64) = true ∧
      nextHas (exec (.spillRotation ⟨1, 1, 0, 0⟩ 0) (spillState false)) (fun t => t.w.slots[(0 : Fin 2)].frag.mask == 0xF0F0#32 && t.w.spill[(0 : Fin 2)] == [0]) = true := by
  decide +kernel

theorem witness_PagesBlocksRetirements :
    paging.pageWanted ⟨1, 1, 0⟩ 1 = true ∧ (paging.team.map fun t => (t.page 1).st) = some .zero ∧ (paging.physicalPages ⟨0, 0⟩).length < 256 ∧
      fetching.w.slots[(0 : Fin 2)].st = .live ∧ fetching.w.stopped = false ∧ fetching.codeBlock fetching.w 0x1024#64 = none ∧
      (match fetching.translate (.core ⟨0, 0⟩) 1 .fetch false 0x1020 with | .ok ha => ha == 0x200020 && fetching.sectorCode 1 ha 32 == 0#8 | .error _ => false) = true ∧
      finishedWarp.retirable finishedWarp.w = true ∧ (finishedWarp.warps.filter fun x => x.id == ⟨1, 1, 0, 0⟩).length = 1 ∧
      (finishedWarp.grid.any fun g => g.status != 3) = true ∧ (finishedWarp.team.any fun t => decide (t.retired.length + 1 < t.warps)) = true := by decide +kernel

/-- The warp waits for page 1, which is backed at home 0x200800; and for page 2 while the core has no free page, of which page 3, least recently
used, is dirty and its backing is at home 0x200800. -/
def backed : State :=
  let s : State := { mapped paging with teams := paging.teams.map fun t => { t with slot := 0, pages := [⟨1, .backed, [], false, true, [], none, 0, none⟩] } }
  { s with ctxs := s.ctxs.map fun c => { c with backing := 0x1000 } }
def crowded : State :=
  let s := mapped (paging.setW fun w => { w with hold := #v[some (.pageIn [2]), none] })
  { s with
    ctxs := s.ctxs.map fun c => { c with backing := 2 ^ 57 - 2 ^ 21 + 0x800 }
    teams := s.teams.map fun t => { t with slot := 0, pages := [⟨3, .resident, [1#8, 2#8], true, true, [], none, 4, none⟩] ++
      ((List.range 255).map fun i => ⟨4 + i, .resident, [], false, false, [], none, 9 + i, none⟩) } }

theorem witness_PagesBlocksRetirements_backed :
    backed.pageWanted ⟨1, 1, 0⟩ 1 = true ∧ (backed.team.map fun t => ((t.page 1).st, (t.page 1).lost, (t.page 1).marks, backingOf backed t 1)) = some (.backed, none, [], 0x1800) ∧
      (backed.physicalPages ⟨0, 0⟩).length < 256 ∧ NothingAwaits backed ∧ BackingPlace 0x1800 ∧
      (∀ i < 32, (match backed.walk 1 (0x1800 + 64 * i) with | .ok l => l.home (0x1800 + 64 * i) == 0x200800 + 64 * i && l.pte.getLsbD 1 | .error _ => false) = true) ∧
      nextHas (exec (.scratchpadPageInComplete ⟨1, 1, 0⟩ 1) { backed with marks := [(0x200840, .poisoned)] })
        (fun t => (t.team.map fun x => (x.page 1).marks) == some [(1, 0x15#8)]) = true := by
  refine ⟨by decide +kernel, by decide +kernel, by decide +kernel, ⟨by decide +kernel, by decide +kernel⟩, by unfold BackingPlace; decide, by decide +kernel, by decide +kernel⟩

theorem witness_PagesBlocksRetirements_victim :
    crowded.pageWanted ⟨1, 1, 0⟩ 2 = true ∧ (crowded.physicalPages ⟨0, 0⟩).length = 256 ∧
      (crowded.victims ⟨0, 0⟩).head?.map (fun x => (x.1, x.2.n, x.2.dirty)) = some (⟨1, 1, 0⟩, 3, true) ∧ crowded.mem.wf = true ∧ crowded.marks = [] ∧
      nextHas (exec (.scratchpadPageInComplete ⟨1, 1, 0⟩ 2) crowded)
        (fun t => (t.team.map fun x => ((x.page 3).st, (x.page 3).lost, (x.page 2).st)) == some (.backed, some 0x09#8, .resident)) = true := by decide +kernel

theorem test_pages_blocks_retirements :
    nextHas (exec (.scratchpadPageInComplete ⟨1, 1, 0⟩ 1) paging) (fun t => (t.team.map fun x => (x.page 1).st) == some .resident) = true ∧
      nextHas (exec (.instructionFetch ⟨1, 1, 0, 0⟩ 0) fetching) (fun t => (t.codeBlock t.w 0x1024#64).any fun b => b.words[1]? == some 0x04030201#32) = true ∧
      nextHas (exec (.warpRetire ⟨1, 1, 0, 0⟩) finishedWarp) (fun t => (t.team? ⟨1, 1, 0⟩).map (·.retired) == some [0] && (t.warp? ⟨1, 1, 0, 0⟩).isNone) = true := by
  decide +kernel

/-! ### Checkpoints, turns, placement (R9, R26, R304 to R313, R333 to R343) -/

/-- A partition of one group, whose turn is this function's. -/
def partOf (turn : Option Nat) : Partition :=
  { n := 0, first := 0, size := 1, coreTable := [], clusterTable := [], engineTable := [], groups := [0], checkpointUs := 1000, turn := turn, turnSince := 0,
    lastTurn := 0, prevCore := none }

/-- A warp that waits for its checkpoint; the context is paused where the checkpoint has begun. -/
def checkpointed (paused : Bool) : State :=
  let s : State := { base with ctxs := base.ctxs.map fun c => { c with paused := paused, undo := [⟨⟨0, 0⟩, 0x200000, List.replicate 256 1#8, []⟩] } }
  s.setW fun w => { w with awaitCheckpoint := true }

/-- Functions 0 and 1 of the partition; context 1 is function 0's, context 2, with the grid, function 1's where `other` says so. -/
def sharing (turn : Option Nat) (other : Bool) : State :=
  let k := if other then 2 else 1
  { base with
    vfs := [plainVf, { plainVf with n := 1 }], parts := [partOf turn], teams := []
    grids := base.grids.map fun g => { g with ctx := k }
    ctxs := (base.ctxs.map fun c => { c with undo := [⟨⟨0, 0⟩, 0x200000, List.replicate 256 1#8, []⟩] }) ++ [{ loadedCtx 2 with vf := 1 }]
    mem := base.mem.writeBytes 0x2000FF [7#8, 8#8] }

/-- A grid with one team to place, of two warps, whose variant fits a core. -/
def placing : State :=
  let v : Variant := ⟨0x44#64, 17, 2, 2048, 64, 3, []⟩
  { base with
    vfs := [plainVf], parts := [partOf (some 0)], teams := [], w := Warp.vacant, clock := 100
    grids := base.grids.map fun g => { g with variants := [v], teams := 3, nextTeam := 1, firstMask := 0xFFFF#32 }
    ctxs := base.ctxs.map fun c => { c with teamSlots := 4, privRegion := 0x100000 } }

/-- A core that compacts: the warp moves to base 64. -/
def compacting : State := { base with cores := base.cores.map fun c => { c with compacting := some (0, [(⟨1, 1, 0, 0⟩, 64)]) } }

/-- Variants 0 and 1 of one warp, of 32 and of 16 registers, each with switch point 7. -/
def fat : Variant := ⟨4#64, 32, 1, 2048, 0, 2, [⟨7, false, 0x44#64, [(3, 5)], [(4, 6)]⟩]⟩
def thin : Variant := ⟨4#64, 16, 1, 2048, 0, 2, [⟨7, false, 0x84#64, [(3, 9)], [(4, 8)]⟩]⟩

/-- A team in its variant 1 that was asked for variant 0 and whose one warp is held at point 7 since 40. -/
def meeting : State :=
  let s : State := { base with
    parts := [partOf (some 0)], vfs := [plainVf], clock := 100
    grids := base.grids.map fun g => { g with variants := [fat, thin] }
    teams := base.teams.map fun t => { t with variant := 1, spadsz := 2048, request := some ⟨none, 0, false, 30, [0], some (7, 40), [0], false⟩ } }
  s.setW fun w => { w with
    atSwitch := some 7, valloc := 16, scalars := scalarBank [(4, 77#32)], vectors := vectorBank [(3, fun t => BitVec.ofNat 32 t)] }

/-- The same rendezvous, of which a second warp has not come; the complete one, where a team to place fits the core meanwhile. -/
def lapsing : State := { meeting with teams := meeting.teams.map fun t => { t with request := some ⟨none, 0, false, 30, [0, 1], some (7, 40), [0], false⟩ } }
def wanted : State :=
  { meeting with
    grids := meeting.grids.map fun g => { g with teams := 2, nextTeam := 1 }
    ctxs := meeting.ctxs.map fun c => { c with teamSlots := 4, privRegion := 0x100000 } }

/-- The same team, asked for nothing. -/
def quiet : State := { meeting with teams := meeting.teams.map fun t => { t with request := none } }

/-- The same team with a lean request of the reserved candidate, which was not taken; the partition has a second core. -/
def lagging : State :=
  { meeting with
    vfs := [{ plainVf with reserved := [⟨.queue 0 0, 0, 0⟩] }]
    teams := meeting.teams.map fun t => { t with request := some ⟨some ⟨.queue 0 0, 0, 0⟩, 0, true, 50, [0], none, [], false⟩ } }

/-- The same team on its way to core 1. -/
def moving : State :=
  { quiet with teams := quiet.teams.map fun t => { t with st := .migrating ⟨0, 1⟩ 1 60, slotMap := [(2, 9)], barriers := [⟨1, 0, 3⟩] } }

theorem witness_CheckpointsAndTurns :
    ((checkpointed false).ctx? 1).any (fun c => !c.paused && !c.savedOut) = true ∧ ((checkpointed true).ctx? 1).any (·.paused) = true ∧
      ((sharing (some 0) false).part? 0).map (·.turn) = some (some 0) ∧ (sharing (some 0) false).hasWork plainVf = true ∧
      (∀ x ∈ (sharing (some 0) false).ring 0, x.n ≠ 0 → (sharing (some 0) false).hasWork x = false) := by decide +kernel

/-- A rollback of one line, and the turn that starts after it. -/
theorem witness_CheckpointsAndTurns_rollback :
    (∃ x ∈ (sharing (some 0) true).ring 0, x.n ≠ 0 ∧ (sharing (some 0) true).hasWork x = true) ∧ (sharing (some 0) true).ctxsOf 0 = [1] ∧
      ((sharing (some 0) true).ctx? 1).any (fun c => !c.savedOut && c.snapshot.teams == [] && c.snapshot.landed == [] && c.undo.map (·.ha) == [0x200000] &&
        c.undo.all fun l => l.bytes.length == 256) = true ∧
      (∀ g ∈ (sharing (some 0) true).grids, g.ctx ≠ 1) ∧ (sharing (some 0) true).teams = [] ∧ (sharing (some 0) true).mem.wf = true ∧
      (sharing none true).sluice.change = none ∧ (sharing none true).waiting 1 = [] ∧ ((sharing none true).vf? 1).any (fun v => (sharing none true).hasWork v) = true ∧
      ((sharing none true).part? 0).any (fun p => p.turn == none && p.lastTurn == 0) = true := by decide +kernel

theorem test_turns :
    nextHas (exec (.checkpointIntervalExpiry 1) (checkpointed false)) (fun t => t.ctxs.map (·.paused) == [true] && t.ctxs.map (·.undo) == [[]]) = true ∧
      nextHas (exec (.checkpointEnd 1) (checkpointed true)) (fun t => t.ctxs.map (·.paused) == [false] && !t.w.awaitCheckpoint) = true ∧
      nextHas (exec (.turnEnd 0) (sharing (some 0) true)) (fun t => t.mem.read 0x2000FF == 1#8 && t.mem.read 0x200100 == 8#8 && t.ctxs.map (·.savedOut) == [true, false]) = true ∧
      nextHas (exec (.turnStart 0) (sharing none true)) (fun t => t.parts.map (·.turn) == [some 1]) = true := by decide +kernel

theorem witness_TeamsArePlaced :
    (placing.part? 0).any (fun p => p.turn == some 0) = true ∧ placing.sluice.change = none ∧ (placing.candidates 0).map (·.1) = [.queue 0 0] ∧
      placing.grids.all (fun g => decide (g.prio < 8) && !g.coop && g.variants.length == 1 && g.nextTeam == 1) = true ∧ placing.freeTeamSlot 1 = some 0 ∧
      placing.team? ⟨1, 1, 1⟩ = none ∧ (∀ w ∈ placing.warps, w.id.teamId ≠ ⟨1, 1, 1⟩) ∧ (placing.scanOrder 0).head? = some ⟨0, 20⟩ ∧
      ((placing.fits ⟨0, 20⟩ ⟨1, 1, 1⟩ ⟨0x44#64, 17, 2, 2048, 64, 3, []⟩).map fun r => r.2.map (·.size)) = some [32, 32] ∧
      (compacting.core ⟨0, 0⟩).compacting = some (0, [(⟨1, 1, 0, 0⟩, 64)]) := by decide +kernel

theorem test_placement :
    nextHas (exec (.teamPlacement 0) placing) (fun t => (t.team? ⟨1, 1, 1⟩).map (·.core) == some ⟨0, 20⟩ && t.grids.map (·.nextTeam) == [2] &&
        (t.warp? ⟨1, 1, 1, 1⟩).any fun w => w.frag.mask == 0xFFFF#32 && w.frag.pc == 0x44#64 && w.valloc == 32) = true ∧
      nextHas (exec (.registerCompactionEnd 0 0 0) compacting) (fun t => t.w.blockBase == 64) = true := by decide +kernel

theorem witness_TeamsSwitchAndMigrate :
    (meeting.team.any fun t => t.request.any fun r => r.point == some (7, 40) && meeting.rendezvous t r && (meeting.variantOf t 1).any (fun v => v.point 7 == some ⟨7, false, 0x84#64, [(3, 9)], [(4, 8)]⟩) &&
        (meeting.variantOf t 0).any fun v => v.point 7 == some ⟨7, false, 0x44#64, [(3, 5)], [(4, 6)]⟩ && (meeting.resize t 0 v false).isSome) = true ∧
      (∀ w ∈ meeting.warpsOfTeam ⟨1, 1, 0⟩, w.privsz = 0) ∧ (meeting.warps.map (·.id)).Nodup := by decide +kernel

/-- A complete rendezvous in a quiet core where no candidate fits; 4,096 cycles after the first arrival of one that is not complete its request has
lapsed; a complete one never does; a fat request gives way to a candidate. -/
theorem witness_TeamsSwitchAndMigrate_rendezvous :
    (meeting.team.any fun t => (meeting.variantOf t 0).any fun v => meeting.unitFree t v false) = true ∧ meeting.candidateFits ⟨0, 0⟩ = false ∧
      (lapsing.team.any fun t => t.request.any fun r => !lapsing.assembled t r && !r.lean) = true ∧
      (meeting.team.any fun t => t.request.any fun r => meeting.assembled t r) = true ∧ wanted.candidateFits ⟨0, 0⟩ = true := by decide +kernel

theorem test_rendezvous_ends :
    let ended (t : State) : Bool := t.w.atSwitch == none && (t.team.map (·.variant)) == some 1 && (t.team.bind (·.request)).isNone
    nextHas (exec (.variantSwitch ⟨1, 1, 0⟩) { lapsing with clock := 4136 }) ended = true ∧
      nextHas (exec (.switchRendezvousTimeout ⟨1, 1, 0⟩) lapsing) (fun t => t.clock == 4136 && ended t && t.w.frag.pc == 8#64) = true ∧
      nextHas (exec (.switchRendezvousTimeout ⟨1, 1, 0⟩) meeting) (fun t => t == meeting) = true ∧
      nextHas (exec (.variantSwitch ⟨1, 1, 0⟩) { meeting with clock := 4136 }) (fun t => (t.team.map (·.variant)) == some 0) = true ∧
      nextHas (exec (.variantSwitch ⟨1, 1, 0⟩) wanted) ended = true := by decide +kernel

/-- A team alone on its core that could be fatter, one that was asked to give way, one that has been drained. -/
theorem witness_TeamsSwitchAndMigrate_moves :
    quiet.candidates 0 = [] ∧ (quiet.team.any fun t => t.st == .running && t.request == none && t.variant == 1 && (quiet.asIf t 0).isSome) = true ∧
      (quiet.teams.filter fun x => x.core == ⟨0, 0⟩).length = 1 ∧
      (lagging.vf? 0).any (fun v => v.reserved.contains ⟨.queue 0 0, 0, 0⟩) = true ∧ lagging.teams.length = 1 ∧
      (lagging.team.any fun t => lagging.mayMigrate t && t.request.any (fun r => r.candidate == some ⟨.queue 0 0, 0, 0⟩ && !r.moved) && (lagging.destination t).isSome) = true ∧
      (moving.team.any fun t => t.st == .migrating ⟨0, 1⟩ 1 60 && moving.drained t &&
        (allocate ((moving.blocks ⟨0, 1⟩).filter fun b => b.warp.teamId != t.id) (moving.teamNeeds t 1)).any fun bs => bs.length == 1) = true ∧
      moving.sluice.pendingPlaces = [] ∧ moving.sluice.pendingGroups = [] ∧ moving.l1 = [] := by decide +kernel

theorem test_switch_and_migrate :
    nextHas (exec (.variantSwitch ⟨1, 1, 0⟩) meeting) (fun t => t.w.frag.pc == 0x44#64 && t.w.valloc == 32 && t.w.readS 8 == 77#32 && (t.w.readV 9)[(5 : Fin 32)] == 5#32) = true ∧
      nextHas (exec (.fatSwitchRequest 0 0) quiet) (fun t => t.clock == 42500 && (t.team.bind (·.request)).map (·.target) == some 0) = true ∧
      nextHas (exec (.leanMigration 0) lagging) (fun t => t.clock == 42550 && (t.team.any fun x => match x.st with | .migrating _ _ since => since == 42550 | _ => false)) = true ∧
      nextHas (exec (.migrationResume ⟨1, 1, 0⟩) moving) (fun t => t.w.core == ⟨0, 1⟩ && (t.team.map (·.barriers)) == some [⟨1, 0, 3⟩]) = true := by decide +kernel

end Sys2Proof.Tests
end

