-- ==== Sys2Proof/Tests/Device.lean ====
section
/-!
SUPPORT. States that meet the hypotheses of the statements about the portal, packets, links, the sluice controller, management and
attestation, with what the rules say of the next state there.
-/

namespace Sys2Proof.Tests

set_option Elab.async false

open Sys2Proof.Machine
open Sys2Proof.Claims

/-! ### The portal and packets (R295 to R300, R314 to R317, R363) -/

/-- A queue of context 1 with these packets. -/
def queueOf (n : Nat) (pasid : Option Nat) (buffer : List (List Byte)) : Queue :=
  { n := n, ctx := 1, pasid := pasid, status := 0x5000, level := 3, weight := 1, aging := 1, expected := 0#32, buffer := buffer }

/-- A device whose host link is up; the function has queue 0 and, for context 1, queue 3. -/
def fronted (s : State) (zero three : List (List Byte)) : State :=
  { s with
    vfs := [{ plainVf with queues := [queueOf 0 none zero, queueOf 3 (some 9) three] }]
    sluice := { s.sluice with hostLink := true, recovery := false } }

/-- A packet: queue, flags, type, sequence number, then its bytes from 8 on. -/
def packetOf (q flags type seq : Nat) (l : List Byte) : List Byte :=
  let b := leBytes 1 q ++ leBytes 1 0 ++ leBytes 1 flags ++ leBytes 1 type ++ leBytes 4 seq ++ l
  b ++ List.replicate (64 - b.length) 0#8

/-- A write of a packet to the portal. -/
def portalWriteOf (offset : Nat) (pasid : Option Nat) (b : List Byte) : BarWrite := { vf := 0, offset := offset, pasid := pasid, bytes := b }

/-- The context of `launcher`, with a task table at 0x4000, and without grids where `idle` says so. -/
def served (idle : Bool) (zero three : List (List Byte)) : State :=
  let s := fronted (launcher 3 192) zero three
  { s with
    grids := if idle then [] else s.grids, teams := if idle then [] else s.teams
    ctxs := s.ctxs.map fun c => { c with taskTable := some (0x4000, 2, 5) } }

/-- A launch of two teams, a task, a node, as packets of queue 3. -/
def launchBytes : List Byte := packetOf 3 0 0x01 5 (leBytes 8 0x2000 ++ leBytes 4 2 ++ leBytes 4 192 ++ leBytes 1 0 ++ leBytes 7 0 ++ leBytes 8 0x78)
def armBytes (task preds : Nat) : List Byte :=
  packetOf 3 1 0x08 5 (leBytes 4 task ++ leBytes 2 preds ++ leBytes 1 15 ++ leBytes 1 0 ++ leBytes 8 0x2000 ++ leBytes 8 0x99 ++ leBytes 4 16)
def nodeBytes : List Byte := packetOf 3 0 0x09 5 (leBytes 2 4095 ++ leBytes 1 6 ++ leBytes 1 7 ++ leBytes 4 0 ++ leBytes 4 512 ++ leBytes 4 0 ++ leBytes 8 0x2000)

/-- The same with a variant of one warp, as a node needs. -/
def nodeServed : State :=
  let s := served true [] [nodeBytes]
  putAt s 0x2112 (leBytes 2 1)

/-- Packets of queue 0 that name context 1: setup of a new one and of this one, a record, an invalidation, pools, a kill, tables, queues. -/
def setupBytes (ctx : Nat) : List Byte :=
  packetOf 0 0 0x11 5 (leBytes 2 ctx ++ leBytes 2 4096 ++ leBytes 4 0 ++ leBytes 8 0x10000 ++ leBytes 8 0x1000 ++ leBytes 8 0 ++ leBytes 8 0x100000)
def recordBytes' (handle : Nat) : List Byte := packetOf 0 0 0x10 5 (leBytes 2 1 ++ leBytes 2 handle ++ leBytes 4 0 ++ leBytes 8 0x1040)
def invalidateBytes : List Byte := packetOf 0 0 0x12 5 (leBytes 2 1 ++ leBytes 6 0 ++ leBytes 8 0x1000 ++ leBytes 8 0x1000)
def framePoolBytes (at' : Nat) : List Byte := packetOf 0 0 0x13 5 (leBytes 2 1 ++ leBytes 6 0 ++ leBytes 8 at' ++ leBytes 2 3)
def pagePoolBytes : List Byte := packetOf 0 0 0x14 5 (leBytes 2 1 ++ leBytes 1 127 ++ leBytes 1 5 ++ leBytes 4 2 ++ leBytes 8 0x1040)
def killBytes (grid : Nat) : List Byte := packetOf 0 0 0x15 5 (leBytes 2 1 ++ leBytes 2 0 ++ leBytes 4 grid)
def tableBytes : List Byte := packetOf 0 0 0x16 5 (leBytes 2 1 ++ leBytes 1 7 ++ leBytes 1 0 ++ leBytes 4 65536 ++ leBytes 8 0x6000)
def keyBytes : List Byte := packetOf 0 0 0x17 5 (leBytes 2 1 ++ leBytes 6 0 ++ leBytes 8 0x7000)
def queueBytes (n remove : Nat) : List Byte :=
  packetOf 0 0 0x18 5 (leBytes 2 1 ++ leBytes 1 n ++ leBytes 1 7 ++ leBytes 1 1 ++ leBytes 1 0 ++ leBytes 2 1 ++ leBytes 4 0xFFFFF ++ leBytes 4 0 ++ leBytes 8 0x5008 ++
    List.replicate 31 0#8 ++ leBytes 1 remove)

/-- Page tables whose one leaf, of a gibibyte, is a supervisor page that nobody may write, as a record table needs (R92), owned by this context. -/
def tabled (owner : Nat) (idle : Bool) (ctx : Nat) : State :=
  let s := served idle [setupBytes ctx] []
  { s with
    mem := ⟨[(0x10000, 0x01), (0x10001, 0x10), (0x10002, 0x01), (0x11000, 0x01), (0x11001, 0x20), (0x11002, 0x01), (0x12000, 0x49), (0x12003, 0x40)]⟩
    owners := [⟨1, true, false, owner, false⟩, ⟨0x4000, true, false, owner, false⟩] }

/-- A closed portal, a queue that does not take the write, a buffer with room and one without, sequence numbers behind and ahead. -/
theorem witness_PortalAnswers :
    let s := fronted base [] (List.replicate 15 [])
    (s.vf? 0).any (fun v => v.enabled && v.portalOpen && (v.queue? 3).any fun q => q.buffer.length == 15 && q.pasid == some 9 && q.expected == 0#32) = true ∧ LinkEnabled s ∧
      QueueTakes (portalWriteOf 0x1000 (some 9) (packetOf 3 0 1 0 [])) (queueOf 3 (some 9) []) ∧ ¬ QueueTakes (portalWriteOf 0x1000 none (packetOf 3 0 1 0 [])) (queueOf 3 (some 9) []) ∧
      packetQueue (packetOf 3 0 1 0 []) = 3 ∧ packetSeq (packetOf 3 0 1 0x80000000 []) = 0x80000000 := by
  unfold LinkEnabled QueueTakes
  decide +kernel

theorem test_portal :
    let answers (s : State) (b : BarWrite) (o : List OutMsg) (n : Nat) : Bool :=
      nextHas (exec (.portalWrite b) s) fun t => t.outbox == o && ((t.vf? 0).bind fun v => v.queue? 3).any fun q => q.buffer.length == n
    let s := fronted base [] (List.replicate 15 [])
    answers s (portalWriteOf 0x1000 (some 9) (packetOf 3 0 1 0 [])) [.portalSuccess 0] 16 = true ∧
      answers (fronted base [] (List.replicate 16 [])) (portalWriteOf 0x1000 (some 9) (packetOf 3 0 1 0 [])) [.portalRetry 0] 16 = true ∧
      answers s (portalWriteOf 0x1000 (some 9) (packetOf 3 0 1 0x80000000 [])) [.portalSuccess 0] 15 = true ∧
      answers s (portalWriteOf 0x1000 (some 9) (packetOf 3 0 1 0x7FFFFFFF [])) [.portalRetry 0] 15 = true := by decide +kernel

/-- A write of the first and the last byte of the MSI-X table. -/
theorem witness_PortalAnswers_table :
    0x2000 ≤ (⟨0, 0x2FFF, none, [1#8]⟩ : BarWrite).offset ∧ (⟨0, 0x2FFF, none, [1#8]⟩ : BarWrite).offset + 1 ≤ 0x3000 ∧ plainVf.msixPending = [] ∧
      nextHas (exec (.msixTableWrite ⟨0, 0x2FFF, none, [1#8]⟩) (fronted base [] [])) (fun t => t.vfs.map (·.msixTable) == [[(0xFFF, 1#8)]]) = true ∧
      nextHas (exec (.barWriteDiscarded ⟨0, 0x1FFF, none, [1#8]⟩) (fronted base [] [])) (fun t => t.outbox == []) = true := by decide +kernel

/-- What a statement about the head of queue n supposes of a state. -/
def headIs (s : State) (n : Nat) (b : List Byte) : Bool :=
  s.sluice.hostLink && !s.sluice.recovery && b.length == 64 && ((s.vf? 0).bind fun v => v.queue? n).any (fun x => x.buffer.head? == some b) &&
    (leAt b 2 1 % 2 != 1 || s.grids.all fun g => g.packet.isNone || g.source != .queue 0 n) &&
    s.lanesLeft.contains (0, n) && s.lanesLeft.all fun l => decide (packetType b ≤ s.laneType l)

/-- The result in a status word of the function's queues that the machine has sent or stored, and what is left of the queue. -/
def statusIs (i : Instr) (s : State) (n seq detail code : Nat) : Bool :=
  nextHas (exec i s) fun t => ((t.vf? 0).bind fun v => v.queue? n).any (fun x => x.buffer == []) &&
    (t.outbox.contains (.hostBusWrite 0x5000 (leBytes 8 (seq * 2 ^ 32 + detail * 2 ^ 8 + code))) || t.mem.readNat 0x205000 8 == seq * 2 ^ 32 + detail * 2 ^ 8 + code)

/-- An unknown type, a privileged type on a user queue, a zero field that is not zero, a user type on queue 0. -/
theorem witness_UserPackets :
    headIs (served true [] [packetOf 3 1 0x02 7 []]) 3 (packetOf 3 1 0x02 7 []) = true ∧ HeaderZero (packetOf 3 1 0x02 7 []) ∧ packetRow 0 3 (packetType (packetOf 3 1 0x02 7 [])) = none ∧
      ((served true [] []).ctx? 1).any (fun c => !c.failed) = true ∧ headIs (served true [] [packetOf 3 0 0x18 7 []]) 3 (packetOf 3 0 0x18 7 []) = true ∧
      ¬ HeaderZero (packetOf 3 2 0x01 7 []) ∧ headIs (served true [packetOf 0 0 0x09 7 []] []) 0 (packetOf 0 0 0x09 7 []) = true := by
  unfold HeaderZero
  decide +kernel

theorem test_packet_results :
    statusIs (.unknownPacketType 0 3) (served true [] [packetOf 3 1 0x02 7 []]) 3 7 0 1 = true ∧
      statusIs (.queueConfigure 0 3) (served true [] [packetOf 3 0 0x18 7 []]) 3 7 0 2 = true ∧
      statusIs (.launchPacket 0 3) (served true [] [packetOf 3 2 0x01 7 []]) 3 7 0 3 = true ∧
      statusIs (.nodeDefine 0 0) (served true [packetOf 0 0 0x09 7 []] []) 0 7 0 4 = true := by decide +kernel

/-- A launch with a frame, and without one. -/
theorem witness_UserPackets_launch :
    headIs (served false [] [launchBytes]) 3 launchBytes = true ∧ HeaderZero launchBytes ∧ packetType launchBytes = 0x01 ∧ leAt launchBytes 24 1 ≤ 1 ∧
      (∀ i < 64, 25 ≤ i ∧ i < 32 ∨ 40 ≤ i → leAt launchBytes i 1 = 0) ∧ ((served false [] [launchBytes]).launchPacketCheck 0 (queueOf 3 (some 9) [launchBytes]) launchBytes).isSome = true ∧
      (served false [] [launchBytes]).freeFrame 1 (frameClass (leAt launchBytes 20 4)) = some 0x3000 ∧ base.freeFrame 1 256 = none := by
  unfold HeaderZero
  decide +kernel

/-- A task beyond the table, one to arm, one that is ready already. -/
theorem witness_UserPackets_tasks :
    headIs (served true [] [armBytes 1 3]) 3 (armBytes 1 3) = true ∧ HeaderZero (armBytes 1 3) ∧ packetType (armBytes 1 3) = 0x08 ∧ leAt (armBytes 1 3) 14 1 = 15 ∧
      leAt (armBytes 1 3) 15 1 = 0 ∧ leAt (armBytes 1 3) 32 4 = 16 ∧ (∀ i < 64, 36 ≤ i → leAt (armBytes 1 3) i 1 = 0) ∧ leAt (armBytes 2 3) 8 4 = 2 ∧
      ((served true [] []).ctx? 1).any (fun c => c.taskTable == some (0x4000, 2, 5) && !(served true [] []).taskBusy c 1 && (served true [] []).taskBusy { c with ready := [(1, 2, 0)] } 1) = true ∧
      ((served true [] []).unitWrite 1 0x4020 (leBytes 32 0)).2 = 0#8 := by
  unfold HeaderZero
  decide +kernel

theorem witness_UserPackets_nodes :
    headIs nodeServed 3 nodeBytes = true ∧ HeaderZero nodeBytes ∧ packetType nodeBytes = 0x09 ∧ leAt nodeBytes 8 2 = 4095 ∧ leAt nodeBytes 10 1 ≤ 7 ∧ leAt nodeBytes 11 1 ≤ 7 ∧
      leAt nodeBytes 12 4 ≤ 1000 ∧ leAt nodeBytes 16 4 = 512 ∧ (∀ i < 64, 20 ≤ i ∧ i < 24 ∨ 32 ≤ i → leAt nodeBytes i 1 = 0) ∧
      ((nodeServed.kernel 1 0x2000).any fun k => k.variants.all fun v => v.warps == 1) = true := by
  unfold HeaderZero
  decide +kernel

/-- The queue of a failed context (R373), and a launch that no frame can hold. -/
def failedServed (b : List Byte) : State :=
  let s := served true [] [b]
  { s with ctxs := s.ctxs.map fun c => { c with failed := true } }

def framelessServed : State :=
  let s := served false [] [launchBytes]
  { s with ctxs := s.ctxs.map fun c => { c with framePool := none } }

theorem witness_UserPackets_waits :
    headIs (failedServed launchBytes) 3 launchBytes = true ∧ ((failedServed launchBytes).ctx? 1).any (·.failed) = true ∧
      ((failedServed (armBytes 1 0)).vf? 0).any (fun v => (v.queue? 3).any fun q => q.buffer == [armBytes 1 0]) = true ∧ packetType (armBytes 1 0) ≠ 0x01 ∧ framelessServed.freeFrame 1 (frameClass (leAt launchBytes 20 4)) = none ∧
      (framelessServed.launchPacketCheck 0 (queueOf 3 (some 9) [launchBytes]) launchBytes).isSome = true ∧
      ((framelessServed.vf? 0).bind fun v => v.queue? 3).any (fun q => q.buffer == [launchBytes]) = true ∧ (framelessServed.ctx? 1).any (fun c => !c.failed) = true := by
  decide +kernel

theorem test_failed_context :
    statusIs (.launchPacket 0 3) (failedServed launchBytes) 3 5 0 4 = true ∧
      nextHas (exec (.taskArm 0 3) (failedServed (armBytes 1 0))) (fun t => ((t.vf? 0).bind fun v => v.queue? 3).any fun q => q.buffer == [armBytes 1 0]) = true ∧
      nextHas (exec (.launchPacket 0 3) framelessServed) (fun t => ((t.vf? 0).bind fun v => v.queue? 3).any fun q => q.buffer == [launchBytes]) = true := by
  decide +kernel

theorem test_user_packets :
    nextHas (exec (.launchPacket 0 3) (served false [] [launchBytes])) (fun t => t.grids.map (·.teams) == [1, 2] && t.grids.map (·.prio) == [0, 3] &&
        t.mem.readNat 0x20301C 4 == 2) = true ∧
      nextHas (exec (.taskArm 0 3) (served true [] [armBytes 1 0])) (fun t => t.ctxs.map (·.ready) == [[(1, 15, 0)]] && t.mem.readNat 0x204020 8 == 0x2000) = true ∧
      nextHas (exec (.nodeDefine 0 3) nodeServed) (fun t => t.ctxs.map (fun c => c.nodes.map fun x => (x.n, x.timerUs, x.key)) == [[(4095, 5, some 2)]]) = true := by decide +kernel

/-- The fields of the packets of queue 0, one type after the other, and the states that take them. -/
theorem witness_PrivilegedPackets :
    headIs (served true [setupBytes 0] []) 0 (setupBytes 0) = true ∧ SetupFields (setupBytes 1) ∧ packetType (setupBytes 1) = 0x11 ∧ leAt (setupBytes 0) 8 2 = 0 ∧
      (served true [] []).ctx? 2 = none ∧ (∀ k < 2, 1 ≤ k → (served true [] []).ctx? k ≠ none) ∧
      ((served true [] []).ctx? 1).any (fun c => c.vf == 0 && !c.failed && !(served true [] []).ctxBusy c && (served false [] []).ctxBusy c) = true := by
  unfold SetupFields ZeroFrom
  refine ⟨by decide +kernel, ⟨by decide +kernel, by decide +kernel, by decide +kernel, by decide +kernel, ?_, ?_⟩, by decide +kernel⟩ <;>
    · intro i h1 h2
      interval_cases i <;> decide +kernel

/-- A walk of any page of the first gibibyte through those tables. -/
theorem gibibyte_walk (s : State) (ctx : Nat) (c : Ctx) (hc : s.ctx? ctx = some c) (ht : c.pageTable = 0x10000)
    (codes : ∀ a ∈ [0x10000, 0x11000, 0x12000], s.sectorCode ctx a 8 = 0#8)
    (entries : leNat (s.seenBytes 0x10000 8) = 0x11001 ∧ leNat (s.seenBytes 0x11000 8) = 0x12001 ∧ leNat (s.seenBytes 0x12000 8) = 0x40000049) (p : Nat) (hp : p < 262144) :
    ∃ l, s.walk ctx (4096 * p) = .ok l ∧ l.pte = 0x40000049#64 := by
  have i5 : 4096 * p / 2 ^ (12 + 9 * 4) % 512 = 0 := by norm_num; omega
  have i4 : 4096 * p / 2 ^ (12 + 9 * 3) % 512 = 0 := by norm_num; omega
  have i3 : 4096 * p / 2 ^ (12 + 9 * 2) % 512 = 0 := by norm_num; omega
  obtain ⟨e5, e4, e3⟩ := entries
  simp only [List.forall_mem_cons, List.not_mem_nil, false_imp_iff, implies_true, and_true] at codes
  obtain ⟨c5, c4, c3⟩ := codes
  refine ⟨⟨0x40000049#64, 0x12000, 4096 * p / 2 ^ (12 + 9 * 2) * 2 ^ (12 + 9 * 2), 2 ^ (12 + 9 * 2)⟩, ?_, rfl⟩
  simp only [State.walk, hc, ht, walkFrom, i5, i4, i3, Nat.mul_zero, Nat.add_zero, c5, e5]
  have b1 : badEntry 0x11001 = false := by decide
  have b2 : badEntry 0x12001 = false := by decide
  have b3 : badEntry 0x40000049 = false := by decide
  simp [b1, b2, b3, bitsOf, c4, e4, c3, e3]

/-- The tables above with the context that the packet makes, in a partition of the banks that its frames lie in. -/
def madeContext : State :=
  let s := { tabled 2 true 0 with parts := [partOf none] }
  State.keepFrames { s with ctxs := s.ctxs ++ [withBases (Ctx.new 2 0 s.clock) (setupBytes 0)] } 2 0

/-- A record table that a setup packet may name. -/
theorem witness_PrivilegedPackets_setup : madeContext.recordTableOk 2 0x1000 = true ∧ (madeContext.unitWrite 2 0x1000 (leBytes 64 0) false).2 = 0#8 := by
  refine ⟨List.all_eq_true.mpr fun p hp => ?_, by decide +kernel⟩
  obtain ⟨i, hi, rfl⟩ := List.mem_map.mp hp
  have hi : i < 1024 := List.mem_range.mp hi
  obtain ⟨l, hl, hv⟩ := gibibyte_walk madeContext 2 (withBases (Ctx.new 2 0 (tabled 2 true 0).clock) (setupBytes 0)) (by decide +kernel) (by decide +kernel)
    (by decide +kernel) (by decide +kernel) (0x1000 / 4096 + i) (by omega)
  simp only [hl, hv]
  simp
  omega

/-- A record and a control block, legal and not. -/
theorem witness_PrivilegedPackets_records :
    headIs (served true [recordBytes' 0] []) 0 (recordBytes' 0) = true ∧ packetType (recordBytes' 5) = 0x10 ∧ (∀ i < 64, 12 ≤ i ∧ i < 16 ∨ 24 ≤ i → leAt (recordBytes' 5) i 1 = 0) ∧
      ((served true [] []).frontRead 1 0x1040 64).any controlBlockOk = true ∧ ((putAt (served true [] []) 0x1040 [3#8]).frontRead 1 0x1040 64).any (fun l => !controlBlockOk l) = true ∧
      ((served true [] []).unitWrite 1 (0x1000 + 64 * 5) (leBytes 64 0) false).2 = 0#8 := by decide +kernel

/-- Invalidation, a frame pool whose pages are mapped and writable, one not aligned, a page pool, a grid to kill. -/
theorem witness_PrivilegedPackets_pools :
    packetType invalidateBytes = 0x12 ∧ (∀ i < 64, 10 ≤ i ∧ i < 16 ∨ 32 ≤ i → leAt invalidateBytes i 1 = 0) ∧ (served true [] []).grids = [] ∧
      packetType (framePoolBytes 0x10000) = 0x13 ∧ (∀ i < 64, 10 ≤ i ∧ i < 16 ∨ 42 ≤ i → leAt (framePoolBytes 0x10000) i 1 = 0) ∧ leAt (framePoolBytes 0x10001) 16 8 % 65536 ≠ 0 ∧
      ((pagesIn 0x10000 (poolLayout 0x10000 ((List.range 9).map fun i => leAt (framePoolBytes 0x10000) (24 + 2 * i) 2)).1).all fun p => decide (p < 2 ^ 57) &&
        match (served true [] []).walk 1 p with
          | .ok f => f.pte.getLsbD 1 && decide (f.home p < 2 ^ 52) && (served true [] []).owns 1 (f.home p)
          | .error _ => false) = true ∧
      (served false [] []).grids.map (·.ctx) = [1] ∧ packetType pagePoolBytes = 0x14 ∧ (∀ i < 64, 24 ≤ i → leAt pagePoolBytes i 1 = 0) ∧ leAt pagePoolBytes 10 1 = 127 ∧
      leAt pagePoolBytes 11 1 ≤ 7 ∧ ((served true [] []).frontRead 1 0x1040 16).isSome = true ∧ packetType (killBytes 7) = 0x15 ∧ (served false [] []).grid? 1 7 = none ∧
      ((served false [] []).grid? 1 1).any (fun g => g.status != 3) = true ∧ (∀ i < 64, 10 ≤ i ∧ i < 12 ∨ 16 ≤ i → leAt (killBytes 1) i 1 = 0) := by decide +kernel

/-- A task table, a key table, a queue to add, one there already, one to remove. -/
theorem witness_PrivilegedPackets_tables :
    packetType tableBytes = 0x16 ∧ leAt tableBytes 11 1 = 0 ∧ (∀ i < 64, 24 ≤ i → leAt tableBytes i 1 = 0) ∧ leAt tableBytes 10 1 = 7 ∧ leAt tableBytes 12 4 = 65536 ∧
      ((served true [] []).ctx? 1).any (fun c => c.ready == []) = true ∧ packetType keyBytes = 0x17 ∧ (∀ i < 64, 10 ≤ i ∧ i < 16 ∨ 24 ≤ i → leAt keyBytes i 1 = 0) ∧
      packetType (queueBytes 4 0) = 0x18 ∧ leAt (queueBytes 4 0) 13 1 = 0 ∧ (∀ i < 63, 20 ≤ i ∧ i < 24 ∨ 32 ≤ i → leAt (queueBytes 4 0) i 1 = 0) ∧ leAt (queueBytes 4 0) 10 1 = 4 ∧
      leAt (queueBytes 4 0) 63 1 = 0 ∧ leAt (queueBytes 4 0) 11 1 = 7 ∧ leAt (queueBytes 4 0) 12 1 = 1 ∧ leAt (queueBytes 4 0) 14 2 = 1 ∧ leAt (queueBytes 4 0) 16 4 < 2 ^ 20 ∧
      ((served true [] []).vf? 0).any (fun v => (v.queue? 4).isNone && (v.queue? 3).any fun q => q.buffer == []) = true ∧ leAt (queueBytes 3 1) 63 1 = 1 := by decide +kernel

theorem test_privileged_packets :
    nextHas (exec (.contextSetup 0 0) (tabled 1 false 1)) (fun t => t.outbox == [.hostBusWrite 0x5000 (leBytes 8 (5 * 2 ^ 32 + 5))]) = true ∧
      statusIs (.recordWrite 0 0) (putAt (served true [recordBytes' 0] []) 0x1040 [3#8]) 0 5 0 3 = true ∧ statusIs (.framePool 0 0) (served true [framePoolBytes 0x10001] []) 0 5 0 3 = true ∧
      nextHas (exec (.pagePool 0 0) (putAt (served true [pagePoolBytes] []) 0x1040 (leBytes 8 0x200000))) (fun t => t.ctxs.map (fun c => c.pagePools.map fun q => (q.n, q.write, q.exec, q.super, q.frames)) ==
        [[(127, true, false, true, [0x200000, 0])]]) = true ∧
      nextHas (exec (.killGrid 0 0) (served false [killBytes 1] [])) (fun t => t.warps.all (·.stopped) && t.grids.map (·.status) == [3]) = true ∧
      nextHas (exec (.queueConfigure 0 0) (served true [queueBytes 3 1] [])) (fun t => t.vfs.map (fun v => v.queues.map (·.n)) == [[0]]) = true ∧
      statusIs (.keyTable 0 0) (served true [keyBytes] []) 0 5 0 0 = true ∧ statusIs (.taskTable 0 0) (served true [tableBytes] []) 0 5 0 0 = true ∧
      statusIs (.invalidateTranslations 0 0) (served true [invalidateBytes] []) 0 5 0 0 = true := by decide +kernel

/-! ### Work-graph nodes, the links and the host (R80, R93, R315, R347, R364, R365) -/

/-- A node with `n` records, the first at time 9, of which the batches of `due` have been made. -/
def gathering (n : Nat) (due : List Nat) : State :=
  let s := launcher 3 192
  { s with ctxs := s.ctxs.map fun c => { c with
      nodes := [{ n := 5, kernel := 0x2000, frame := 192, timerUs := 2, key := none, level := 6, due := due, records := (List.range n).map fun i => (9 + i, List.replicate 16 (BitVec.ofNat 8 i)) }] } }

/-- A device of four frames in service, frame 0x22 retired; a peer's identity is mapped to context 1; link 3 has been replayed `n` times. -/
def linked (n : Nat) : State :=
  let s : State := { base with
    mem := base.mem.writeBytes 0x20FFFC (leBytes 8 0x8877665544332211)
    owners := [⟨0x20, true, false, 1, false⟩, ⟨0x21, true, false, 1, false⟩, ⟨0x22, false, true, 0, false⟩]
    marks := [(0x210000, .poisoned)], ingress := [(5 * 4096 + 7, 1)], routes := [(5, [3])], links := [⟨3, true, n⟩, ⟨4, false, 0⟩] }
  { s with sluice := { s.sluice with hostLink := true, recovery := false } }

/-- A load of a warp from a peer that no link reaches: device 6. -/
def stranded : State := (linked 0).setW fun w => { w with loads := [⟨4, 4#64, 4, 8, [⟨0, 0x1000, 2 ^ 57 + 6 * 2 ^ 52, 0, 4⟩], .cached, none, 0, 1, false, none, 0, []⟩] }

/-! ### The sluice controller (R311 to R374) -/

/-- Before start-up, and a record of this version. -/
def startRecord (valid : Bool) (version image : Nat) : StartRecord :=
  { recordValid := valid, bytes := [1#8], trim := 9, identityKey := 77, version := version, minVersion := 2, sluiceImage := ⟨true, 2, [2#8], false⟩,
    heddleImage := ⟨true, image, [3#8], true⟩, packingOk := true, defects := [], retired := [0x22], stepping := 1, linkWidth := 16, linkRate := 6 }

/-- Ply 1 stopped. -/
def hot : State := { base with sluice := { base.sluice with stoppedPlies := [1] } }

/-- Two partitions, the second with function 0 and context 1; the L1 and L2 hold lines. -/
def managed (busy : Bool) : State :=
  { linked 0 with
    parts := [partOf none, { partOf none with n := 1, first := 1, groups := [1] }]
    vfs := [{ plainVf with part := some 1, queues := [queueOf 0 none []] }]
    ctxs := if busy then base.ctxs else [], w := if busy then base.w else Warp.vacant, grids := if busy then base.grids else [], teams := if busy then base.teams else []
    l1 := [⟨⟨0, 0⟩, 1, 0x200000, List.replicate 64 0#8, false, false, false⟩]
    l2 := [⟨0x200000, 1, 3, false, 1, 0, false, false, false⟩] }

theorem witness_NodesLaunch :
    ((gathering 3 [2]).ctx? 1).any (fun c => !c.failed && c.nodes.any fun x => x.records[x.due.sum]? == some (11, List.replicate 16 2#8) && x.due == [2]) = true ∧
      ((gathering 32 [32]).ctx? 1).any (fun c => c.nodes.any fun x => x.due == [32]) = true ∧ ((gathering 32 [32]).kernel 1 0x2000).isSome = true ∧
      (gathering 32 [32]).freeFrame 1 (frameClass 192) = some 0x3000 := by decide +kernel

theorem test_nodes :
    nextHas (exec (.nodeTimerExpiry 1 5) (gathering 3 [2])) (fun t => t.clock == 1712 && t.ctxs.map (fun c => c.nodes.map (·.due)) == [[[2, 1]]]) = true ∧
      nextHas (exec (.nodeBatchLaunch 1 5) (gathering 3 [2])) (fun t => t.grids.map (·.firstMask) == [0xFFFFFFFF#32, 3#32] && t.ctxs.map (fun c => c.nodes.map fun x => x.records.length) == [[1]]) = true := by
  decide +kernel

theorem witness_LinksAndHost :
    (linked 0).mem.wf = true ∧ LinkEnabled (linked 0) ∧ (linked 0).l1 = [] ∧ (∀ i < 4, (linked 0).inService (0x20FFFE + i) = true) ∧ (linked 0).inService 0x220000 = false ∧
      (∀ e ∈ (linked 0).ingress, e.1 ≠ 5) ∧ (linked 0).ingress.find? (fun e => e.1 == 20487) = some (20487, 1) ∧
      (∀ n ≤ 64, (linked 0).sectorCode 1 0x20FFFC n = 0#8) ∧ (linked 0).storeCode 1 0x20FFFC = 0#8 ∧ (0x20FFF8 : Nat) % 8 = 0 ∧ (linked 0).sectorCode 1 0x20FFF8 8 = 0#8 := by
  unfold LinkEnabled
  decide +kernel

/-- A load that no link carries; a peer's context that is mapped to one context, and one that is not; both ends of the tables. -/
theorem witness_LinksAndHost_links :
    (stranded.warp? ⟨1, 1, 0, 0⟩).isSome = true ∧ (stranded.w.loads.find? fun y => y.data.isNone && y.lanes.any fun r => !stranded.reachable r.ha).isSome = true ∧
      (∀ y ∈ (linked 0).w.loads, ∀ r ∈ y.lanes, (linked 0).reachable r.ha = true) ∧ (linked 0).stores = [] ∧ (linked 0).copies = [] ∧ (linked 0).ops = [] ∧
      (linked 0).mark 0x20FFC0 = none ∧ (linked 0).mark 0x210000 = some .poisoned ∧ (linked 0).sluice.recovery = false ∧
      (linked 0).owns 1 0x20FFFC = true ∧
      (linked 0).ingress.filter (fun e => e.1 == 5 * 4096 + 7) = [(5 * 4096 + 7, 1)] ∧ (∀ e ∈ (linked 0).ingress, e.1 ≠ 5 * 4096 + 8) ∧ (linked 0).ingress.length < 4096 := by
  decide +kernel

/-- A store that the bank has accepted waits there for an engine's data. -/
def awaited : State :=
  { linked 0 with stores := [⟨1, ⟨1, 1, 0, 0⟩, ⟨0, 0⟩, 4#64, [(⟨0, 0x1000, 0x20FFFC, 0, 4⟩, [1#8, 2#8, 3#8, 4#8])], true, false, false, 1, [(0x20FFC0, 9)], 0⟩] }

theorem witness_LinksAndHost_awaits :
    awaited.bankAwaits 0x20FFFE = true ∧ awaited.inService 0x20FFFE = true ∧ (∀ i < 4, (linked 0).bankAwaits (0x20FFFC + i) = false) ∧
      nextHas (exec (.hostRead 0x20FFFE 1) awaited) (fun t => t.outbox == []) = true := by decide +kernel

/-- Without the link nothing is answered (R367). -/
theorem witness_LinksAndHost_unlinked :
    let s : State := { linked 0 with sluice := { (linked 0).sluice with recovery := true } }
    ¬ LinkEnabled s ∧ nextHas (exec (.hostRead 0x20FFFE 4) s) (fun t => t.outbox == []) = true ∧
      nextHas (exec (.hostWrite 0x20FFFE [1#8]) s) (fun t => t.outbox == [] && t.mem == s.mem) = true := by
  refine ⟨by unfold LinkEnabled; decide +kernel, by decide +kernel, by decide +kernel⟩

theorem test_links :
    nextHas (exec (.hostWrite 0x20FFFE [1#8, 2#8, 3#8, 4#8]) (linked 0)) (fun t => t.mem.readNat 0x20FFFC 8 == 0x8877040302012211 && t.outbox == [.completer true]) = true ∧
      nextHas (exec (.hostRead 0x20FFFE 4) (linked 0)) (fun t => t.outbox == [.readData [0x33#8, 0x44#8, 0x55#8, 0x66#8] true]) = true ∧
      nextHas (exec (.weftIngressRequest ⟨5 * 4096 + 7, 0x20FFFC, .atomic 1 false false 4 0xF0000000 0⟩) (linked 0)) (fun t => t.mem.readNat 0x20FFFC 4 == 0xF0000000) = true ∧
      nextHas (exec (.weftIngressRequest ⟨5 * 4096 + 7, 0x20FFFE, .store [1#8, 2#8, 3#8, 4#8] true⟩) (linked 0)) (fun t =>
        t.marks == [(0x210000, .poisoned), (0x20FFC0, .poisoned)] && t.mem.readNat 0x20FFFC 8 == 0x8877040302012211) = true ∧
      nextHas (exec (.weftIngressRequest ⟨5 * 4096 + 7, 0x20FFFE, .load 4⟩) (linked 0)) (fun t => t.outbox == [.weftAnswer [0x33#8, 0x44#8, 0x55#8, 0x66#8] true]) = true ∧
      nextHas (exec (.routeIngressTableWrite (.device 63)) (linked 0)) (fun t => t.sluice.device == 63 && t.outbox == [.commandDone []]) = true ∧
      nextHas (exec (.weftFlitReceive 3 false) (linked 16)) (fun t => t.links.map (·.up) == [false, false]) = true ∧
      nextHas (exec (.weftFlitReceive 3 false) (linked 15)) (fun t => t.links.map (·.up) == [true, false]) = true ∧
      nextHas (exec (.weftRequestTimeout ⟨1, 1, 0, 0⟩) stranded) (fun t => t.w.stopped) = true ∧
      nextHas (exec (.routeIngressTableWrite (.route 64 [1])) (linked 0)) (fun t => t.outbox == [.commandError]) = true ∧
      nextHas (exec (.routeIngressTableWrite (.ingress 262143 (some 4095))) (linked 0)) (fun t => t.ingress.contains (262143, 4095)) = true := by decide +kernel

/-- Versions at the counter and below it; sensors at the limits; errors; a mask that is legal and one with three neighbours. -/
theorem witness_PlatformEvents :
    State.reset.sluice.started = false ∧ (startRecord true 3 2).version = 3 ∧ (startRecord false 3 2).recordValid = false ∧ (startRecord true 3 2).minVersion ≤ (startRecord true 3 2).heddleImage.version ∧
      (startRecord true 3 1).heddleImage.version < (startRecord true 3 1).minVersion ∧ (startRecord true 3 1).sluiceImage.valid = true ∧ State.reset.sluice.counter ≤ 3 ∧ ((managed true).ctx? 1).any (fun c => !c.failed && c.vf == 0) = true ∧
      (managed true).ctxsOf 0 = [1] ∧ (managed true).sluice.change = none ∧ (managed true).sluice.pendingResets = [] ∧ LegalMask 0b11010110 ∧ ¬ LegalMask 0b00000111 ∧
      (managed true).owners.find? (fun x => x.frame == 0x22) = some ⟨0x22, false, true, 0, false⟩ := by
  unfold LegalMask
  decide +kernel

/-- A frame of the banks of the function's partition. -/
theorem witness_PlatformEvents_owner :
    let s : State := { managed true with vfs := [plainVf] }
    (s.vf? 0).map (·.part) = some (some 0) ∧ (s.bankPart (0x23 * 65536)).map (·.n) = some 0 ∧ 0x23 * 65536 < 192 * 2 ^ 30 ∧ (∀ f ∈ s.owners, f.frame = 0x23 → f.retired = false) ∧
      nextHas (exec (.frameOwnerChange 0x23 1) s) (fun t => t.owners.any fun f => f.frame == 0x23 && f.owner == 1 && f.valid) = true := by decide +kernel

/-- An entry that a sector's TLB holds goes with its tag error (R371); telemetry names a quarantined way of it. -/
theorem witness_PlatformEvents_tags :
    let s : State := { managed true with tlb := [⟨.sector 0 2, 1, 0x1000, 4096, 0x1000, 0x200033#64, 0x14008⟩, ⟨.core ⟨0, 2⟩, 1, 0x1000, 4096, 0x1000, 0x200033#64, 0x14008⟩] }
    nextHas (exec (.uncorrectableError (.tagResolvedTlb 0 (.sector 2) 1 0x1000)) s) (fun t => t.tlb.map (·.home) == [.core ⟨0, 2⟩]) = true ∧
      nextHas (exec (.uncorrectableError (.tagUnresolvedTlb 0 (.sector 2) 0x1000)) s) (fun t => t.sluice.quarantinedTlbs == [(.sector 0 2, 1)]) = true ∧
      (∀ p ∈ (managed true).parts, ∀ v, p.turn = some v → (managed true).waiting v = []) := by
  refine ⟨by decide +kernel, by decide +kernel, ?_⟩
  intro p hp v hv
  revert v
  revert p
  decide +kernel

theorem test_platform :
    nextHas (exec (.startUp (startRecord true 3 2)) State.reset) (fun t => t.sluice.hostLink && t.sluice.counter == 3) = true ∧
      nextHas (exec (.thermalSensorRead [⟨1, 100⟩, ⟨0, 111⟩]) hot) (fun t => t.sluice.stoppedPlies == [1, 0]) = true ∧
      nextHas (exec (.uncorrectableError (.coreSram 0 0 1 false)) (managed true)) (fun t => t.ctxs.map (·.failed) == [true] && t.w.stopped) = true ∧
      nextHas (exec (.contextTeardown 1) (managed true)) (fun t => t.ctxs == [] && t.teams == [] && t.owners.all fun f => !f.valid) = true ∧
      nextHas (exec (.functionLevelReset 0) (managed true)) (fun t => t.mem.readNat 0x20FFFC 8 == 0 && t.vfs.map (·.portalOpen) == [false]) = true ∧
      nextHas (exec (.setRoles 0b11011010) (managed true)) (fun t => t.sluice.change == some ⟨0b11010110, 0b11011010⟩) = true ∧
      nextHas (exec (.setRoles 0b00000111) (managed true)) (fun t => t.outbox == [.commandError]) = true := by decide +kernel

/-- A place that is legal and one that is not, a busy partition and one without contexts, values at their limits, a locked interface. -/
theorem witness_ManagementCommands :
    LegalPlace (managed true).parts 10 2 ∧ ¬ LegalPlace (managed true).parts 1 2 ∧ (managed true).part? 2 = none ∧ (∀ k < 2, (managed true).part? k ≠ none) ∧
      (∀ p ∈ (managed true).parts, 2 ∉ p.groups) ∧ (∀ k < 2, ∃ p ∈ (managed true).parts, k ∈ p.groups) ∧ (managed true).ctxsIn 1 ≠ [] ∧ (managed false).ctxsIn 1 = [] ∧
      LegalPlace ((managed false).parts.filter fun q => q.n != 1) 2 2 ∧ (managed false).sluice.pendingPlaces = [] ∧ (managed false).sluice.pendingGroups = [] ∧ (managed false).placeReady ⟨1, .core, ⟨3, 25, true⟩⟩ = true ∧
      (partOf none).placeInside .core ⟨3, 21, true⟩ = true ∧ (partOf none).placeInside .core ⟨3, 22, true⟩ = false ∧ (managed true).groupReady (23, 1) = true ∧
      (managed false).placeReady ⟨1, .cluster, ⟨3, 5, false⟩⟩ = true ∧ (∀ q ∈ (managed true).parts, q.n ≠ 1 → q.groups ≠ [23]) ∧ (∃ q ∈ (managed true).parts, q.n ≠ 1 ∧ q.groups = [0]) := by
  unfold LegalPlace
  decide +kernel

theorem witness_ManagementCommands_functions :
    ((managed false).vf? 0).any (fun v => v.tdisp == .unlocked) = true ∧ (managed false).ctxsOf 0 = [] ∧ (managed true).ctxsOf 0 ≠ [] ∧ (featureOfId 20).isSome = true ∧
      (managed true).vf? 63 = none ∧ (managed true).vf? 1 = none ∧ LinkEnabled (managed true) ∧ Fixed { plainVf with tdisp := .run } ∧ ¬ Fixed plainVf := by
  unfold LinkEnabled Fixed
  decide +kernel

/-- The function's interface is locked, while its partition has no context. -/
def lockedManaged : State := { managed false with vfs := (managed false).vfs.map fun v => { v with tdisp := .locked } }

theorem witness_ManagementCommands_locked :
    (∀ v ∈ lockedManaged.vfs, lockedManaged.vf? v.n = some v ∧ v.part = some 1 ∧ Fixed v) ∧ (lockedManaged.part? 1).isSome = true ∧
      (∀ v ∈ (managed false).vfs, (managed false).vf? v.n = some v ∧ ¬ Fixed v) ∧ ((managed false).vf? 63 = none) := by
  unfold Fixed
  decide +kernel

theorem test_locked_interface :
    nextHas (exec (.partitionRemove 1) lockedManaged) (fun t => t.parts.map (·.n) == [0, 1] && t.vfs.map (fun v => (v.tdisp, v.part)) == [(.error, some 1)]) = true ∧
      nextHas (exec (.partitionResize 1 2 2) lockedManaged) (fun t => t.parts.map (·.first) == [0, 1] && t.vfs.map (·.tdisp) == [.error]) = true ∧
      nextHas (exec (.partitionResize 1 2 2) (managed false)) (fun t => t.parts.map (fun p => (p.first, p.size)) == [(0, 1), (2, 2)]) = true := by decide +kernel

/-! ### The capability list (R363, R377 to R379) -/

/-- A function of a partition of two slices, with these features masked, and a read of its BAR to come. -/
def reported (masked : List Feature) : State :=
  let s : State := { managed false with vfs := [{ plainVf with part := some 1, masked := masked, quantumUs := 500 }, { plainVf with n := 1, part := some 1, quantumUs := 700 }] }
  let s : State := { s with sluice := { s.sluice with stepping := 2, roles := 0b11010110, linkWidth := 16, linkRate := 6, device := 9 } }
  { s.publish with agenda := [.barRead 0 0xFC 12] }

theorem witness_ManagementCommands_capabilities :
    ((reported []).vf? 0).any (·.enabled) = true ∧ (reported []).agenda = [.barRead 0 0xFC 12] ∧ (∀ p ∈ (reported []).parts, (reported []).turnDue p = false) ∧
      LinkEnabled (reported []) ∧ capTable.length = 12 ∧ capAt 4 = 0x158 ∧ capAt 12 = 0x198 ∧ unlinked { plainVf with masked := [.matrix] } 4 ∧ (featureOfId 0x17).isSome = true := by
  refine ⟨by decide +kernel, by decide +kernel, by decide +kernel, ?_, by decide +kernel, by decide +kernel, by decide +kernel, ⟨(0x10, 8), .matrix, by decide +kernel⟩,
    by decide +kernel⟩
  unfold LinkEnabled
  decide +kernel

/-- The read of the header of the first entry; entry 3 reports the bound of R312; the last entry is followed by none, and a masked one is passed over. -/
theorem test_capability_list :
    nextHas (step (reported [])) (fun t => t.outbox == [.readData [0, 0, 0, 0, 0x01, 0, 1, 32, 0x20, 0x01, 0, 0] false]) = true ∧
      ((reported []).vf? 0).any (fun v => leAt v.capList 48 2 == 3 && leAt v.capList 64 8 == 760) = true ∧
      ((reported []).vf? 0).any (fun v => leAt v.capList 0x94 4 == 0) = true ∧
      ((reported [.matrix]).vf? 0).any (fun v => leAt v.capList (0x148 - 0x100 + 4) 4 == 0x160) = true := by decide +kernel

theorem test_management :
    nextHas (exec (.partitionCreate 10 2) (managed true)) (fun t => t.parts.map (fun p => (p.n, p.groups)) == [(0, [0]), (1, [1]), (2, [2])]) = true ∧
      nextHas (exec (.partitionRemove 1) (managed false)) (fun t => t.parts.map (·.n) == [0] && t.vfs.map (·.part) == [none]) = true ∧
      nextHas (exec (.checkpointIntervalSet 1 99) (managed true)) (fun t => t.outbox == [.commandError]) = true ∧
      nextHas (exec (.quantumSet 0 20000) (managed true)) (fun t => t.vfs.map (·.quantumUs) == [20000]) = true ∧
      nextHas (exec (.wayMaskSet 0 0xFFF0) (managed true)) (fun t => t.l2 == [] && t.vfs.map (·.wayMask) == [0xFFF0#16]) = true ∧
      nextHas (exec (.virtualFunctionEnable 63) (managed true)) (fun t => (t.vf? 63).any fun v => v.portalOpen && v.queues.map (·.n) == [0]) = true ∧
      nextHas (exec (.vfPartitionAssign 0 0) (managed false)) (fun t => t.vfs.map (·.part) == [some 0]) = true ∧
      nextHas (exec (.copyEngineGroupAssign 23 1) (managed true)) (fun t => t.parts.map (·.groups) == [[0], [1, 23]]) = true ∧
      nextHas (exec (.placeTableWrite 1 .core 3 25 true) (managed false)) (fun t => t.parts.map (fun p => p.coreTable.length) == [0, 1]) = true := by decide +kernel

/-! ### Attestation and link protection (R362, R363, R368) -/

/-- The trusted endpoint inside the secured session, and one that is not trusted. -/
def inside : Endpoint := ⟨true, true⟩
def outsider : Endpoint := ⟨false, true⟩

/-- A session with stream 2 programmed; function 0 in a state of its interface. -/
def sessionOf (x : TdispState) : State :=
  { base with
    spdm := { version := true, capabilities := true, algorithms := true, handshake := some true, session := true, keyPhase := 4, streams := [⟨2, 77, false⟩] }
    vfs := [{ plainVf with tdisp := x }] }

theorem witness_SecurityMessages :
    endpointOf (.getVersion inside) = some inside ∧ (spdmRow (sessionOf .run) inside (.finish inside false)).map (·.1) = some false ∧
      (spdmRow (sessionOf .run) inside (.finish inside true)).map (·.1) = some true ∧ (spdmRow base inside (.getDigests inside)).map (·.1) = some false ∧
      inside.trusted = true ∧ inside.secured = true ∧ (sessionOf .run).spdm.session = true ∧ (sessionOf .run).spdm.algorithms = true ∧ sessionOnly (.query inside 2) = true ∧
      outsider.trusted = false ∧ base.spdm.session = false ∧ (sessionOf .run).spdm.streams.find? (fun x => x.n == 3) = none ∧
      (sessionOf .run).spdm.streams.find? (fun x => x.n == 2) = some ⟨2, 77, false⟩ := by decide +kernel

/-- A message that the interface's state takes and one that it does not; the measurements at 6 and 7. -/
theorem witness_SecurityMessages_interface :
    ((sessionOf .locked).vf? 0).bind (fun v => interfaceAfter v.tdisp .startInterface) = some .run ∧ ((sessionOf .run).vf? 0).bind (fun v => interfaceAfter v.tdisp .lockInterface) = none ∧
      nextHas (exec (.tdispMessage inside 0 .startInterface) (sessionOf .locked)) (fun t => t.vfs.map (·.tdisp) == [.run]) = true ∧
      nextHas (exec (.getMeasurements inside 0 7) (sessionOf .run)) (fun t => t.outbox == [.commandError]) = true := by decide +kernel

theorem test_security :
    nextHas (exec (.keyUpdate inside) (sessionOf .run)) (fun t => t.spdm.keyPhase == 5) = true ∧ nextHas (exec (.endSession outsider) (sessionOf .run)) (fun t => t.spdm.session) = true ∧
      nextHas (exec (.endSession inside) (sessionOf .run)) (fun t => !t.spdm.session) = true ∧
      nextHas (exec (.kSetGo inside 2) (sessionOf .run)) (fun t => t.spdm.streams == [⟨2, 77, true⟩] && t.outbox == [.commandDone [2]]) = true ∧
      nextHas (exec (.query inside 3) (sessionOf .run)) (fun t => t.outbox == [.commandDone [3, 0, 0]]) = true ∧
      nextHas (exec (.query inside 3) base) (fun t => t.outbox == [.commandError]) = true := by decide +kernel

end Sys2Proof.Tests
end

