-- ==== Sys2Proof/Tests/Faults.lean ====
section
/-!
SUPPORT. States that meet the hypotheses of the statements about translations, traps, returns, stops, binary32 and the
cross-thread instructions, with what the rules say of the next state there.
-/

namespace Sys2Proof.Tests

set_option Elab.async false

open Sys2Proof.Machine
open Sys2Proof.Claims

/-! ### Translations and exceptions (R68, R188, R324 to R330) -/

/-- The mapped page with another leaf; with the table entries' frame withheld; at a peer whose own tables do not map the page (R362). -/
def leafIs (e : Nat) : State := let s := mapped base; { s with mem := s.mem.writeBytes 0x14008 (leBytes 8 e) }
def withheld : State := { mapped base with owners := [⟨0x20, true, false, 1, false⟩] }
def atPeer : State := { leafIs 0x200203 with far := [⟨2 ^ 57 + 0x200FC0, 0x08, false⟩], links := [⟨0, true, 0⟩], routes := [(0, [0])] }

/-- A leaf that no core holds yet, at the last byte of its page: every clause that leads to its home, and what using it writes. -/
theorem witness_Translations :
    let s := mapped base
    let e := walkEntry s 0x10000 0x1FFF 4
    s.mem.wf = true ∧ s.cached (.core ⟨0, 0⟩) 1 0x1FFF = none ∧ AcceptedNothing s ∧ (s.ctx? 1).map (·.pageTable) = some 0x10000 ∧
      WalkComes s 1 0x10000 0x1FFF 4 ∧ s.sectorCode 1 (walkAddr s 0x10000 0x1FFF 4) 8 = 0#8 ∧ e.testBit 0 = true ∧ ¬ BadEntry e 4 ∧ MapsPage e 4 ∧
      ¬ Forbids .store false e ∧ FarTranslates s e (homeUnder e (0x1FFF % 2 ^ 12)) ∧ homeUnder e (0x1FFF % 2 ^ 12) = 0x200FFF ∧
      s.translate (.core ⟨0, 0⟩) 1 .store false 0x1FFF = .ok 0x200FFF ∧
      (match s.leaf (.core ⟨0, 0⟩) 1 0x1FFF true with
        | .ok l => l.pteHa == 0x14008 && (walkReads s 1 0x1FFF 5 (s.tableOf 1)).all (fun ha => s.owns 1 ha) &&
            (s.touch (.core ⟨0, 0⟩) 1 0x1FFF true).mem.read l.pteHa == 0x33#8
        | .error _ => false) = true := by
  refine ⟨by decide +kernel, by decide +kernel, ?_, by decide +kernel, ?_, by decide +kernel, by decide +kernel, ?_, .inl rfl, ?_, .inl (by decide +kernel),
    by decide +kernel, by decide +kernel, by decide +kernel⟩
  · unfold AcceptedNothing; decide +kernel
  · unfold WalkComes BadEntry MapsPage; decide +kernel
  · unfold BadEntry MapsPage; decide +kernel
  · unfold Forbids; decide +kernel

/-- Each way in which a walk of that page ends without a home: an entry withheld, one not valid, one with a loc that no leaf has, one whose frame is
not that of its 2 MiB page, one that forbids the access, and one that the peer does not map. -/
theorem witness_Translations_errors :
    (withheld.sectorCode 1 (walkAddr withheld 0x10000 0x1FFF 0) 8 ≠ 0#8 ∧ WalkComes withheld 1 0x10000 0x1FFF 0 ∧
      withheld.translate (.core ⟨0, 0⟩) 1 .load false 0x1FFF = .error (withheld.sectorCode 1 (walkAddr withheld 0x10000 0x1FFF 0) 8)) ∧
      ((walkEntry (leafIs 0) 0x10000 0x1FFF 4).testBit 0 = false ∧ (leafIs 0).translate (.core ⟨0, 0⟩) 1 .load false 0x1FFF = .error 0x08#8) ∧
      (BadEntry (walkEntry (leafIs 0x200303) 0x10000 0x1FFF 4) 4 ∧ (leafIs 0x200303).translate (.core ⟨0, 0⟩) 1 .load false 0x1FFF = .error 0x09#8) ∧
      (BadEntry 0x201043 3 ∧ ¬ BadEntry 0x200043 3 ∧ MapsPage 0x200043 3) ∧
      (Forbids .store false (walkEntry (leafIs 0x200001) 0x10000 0x1FFF 4) ∧ (leafIs 0x200001).translate (.core ⟨0, 0⟩) 1 .store false 0x1FFF = .error 0x09#8) ∧
      (Forbids .load false (walkEntry (leafIs 0x20000B) 0x10000 0x1FFF 4) ∧ (leafIs 0x20000B).translate (.core ⟨0, 0⟩) 1 .load false 0x1FFF = .error 0x09#8) ∧
      (¬ FarTranslates atPeer 0x200203 (homeUnder 0x200203 0xFFF) ∧ atPeer.translate (.core ⟨0, 0⟩) 1 .load false 0x1FFF = .error 0x08#8) ∧
      (mapped base).translate (.core ⟨0, 0⟩) 1 .load false (2 ^ 57) = .error 0x09#8 := by
  unfold WalkComes BadEntry MapsPage Forbids FarTranslates
  refine ⟨⟨?_, ?_, ?_⟩, ⟨?_, ?_⟩, ⟨?_, ?_⟩, ⟨?_, ?_, ?_⟩, ⟨?_, ?_⟩, ⟨?_, ?_⟩, ⟨?_, ?_⟩, ?_⟩ <;> decide +kernel

/-- A context whose control block, at the base of its record table at home 0x200000, names a handler (R327). -/
def handled : State :=
  { mapped base with
    mem := (mapped base).mem.writeBytes 0x200000 (leBytes 8 0x1104)
    ctxs := base.ctxs.map fun c => { c with pageTable := 0x10000, recordTable := 0x1000 } }

theorem witness_TrapsEnterTheHandler :
    handled.precheck (.trap 0xFFFF) = none ∧ handled.precheck .brkpt = none ∧ handled.w.super = false ∧ handled.handlerAddr handled.w.id.ctx = 0x1104 ∧
      nextHas (exec (.trap 0xFFFF) handled) (fun t => t.w.faultInfo == 0xFFFF0017#32 && t.w.super && t.w.frag.pc == 0x1104#64) = true ∧
      nextHas (exec .brkpt handled) (fun t => t.w.faultInfo == 0x18#32 && t.w.handler.any fun h => h.frag.pc == 8#64) = true := by decide +kernel

/-- The state in which the handler of `handled` begins. -/
def inHandler : State := match exec (.trap 7) (handled.setW fun w => { w with scalars := scalarBank [(112, 5#32), (127, 6#32)] }) with
  | .next t => t.setW fun w => { w with scalars := scalarBank [(111, 9#32), (112, 1#32)] }
  | _ => handled

theorem witness_ReturnFromHandler :
    inHandler.precheck .rfe = none ∧ (inHandler.w.handler.any fun h => h.op.isNone) = true ∧ inHandler.w.opFaults = [] ∧
      nextHas (exec .rfe inHandler) (fun t => t.w.readS 111 == 9#32 && t.w.readS 112 == 5#32 && t.w.readS 127 == 6#32 && !t.w.super
        && t.w.frag.pc == 8#64) = true := by decide +kernel

/-- A trap and the return from it, one after the other. -/
theorem witness_ReturnFromHandler_trap :
    handled.precheck (.trap 7) = none ∧ handled.w.super = false ∧ handled.w.handler = none ∧ handled.w.faultInfo = 0#32 ∧ handled.w.faultVa = 0 ∧
      handled.w.faultMask = 0#32 ∧ handled.w.opFaults = [] ∧ handled.w.slots[handled.w.cur].st = .live ∧ handled.handlerAddr handled.w.id.ctx ≠ 0 ∧
      nextHas (exec (.trap 7) handled) (fun t => (t.precheck .rfe).isNone) = true := by decide +kernel

/-- A fault of route S, and one of route W in a context without a handler. -/
theorem witness_RouteStops :
    base.w.present = true ∧ (base.grid.any fun g => g.status != 3) = true ∧ (0x05#8 : Code) ≠ 0x08#8 ∧ (0x05#8 : Code) ≠ 0x17#8 ∧
      (0x05#8 : Code) ≠ 0x18#8 ∧ base.handlerAddr base.w.id.ctx = 0 ∧
      (base.raise { code := 0x17#8, mask := base.w.frag.mask }).warps.all (·.stopped) = true := by decide +kernel

/-- A walk that answers a home address does so for a leaf. -/
theorem walk_home {s : State} {ctx va ha : Nat} (h : (match s.walk ctx va with | .ok l => l.home va == ha | .error _ => false) = true) :
    ∃ l, s.walk ctx va = .ok l ∧ l.home va = ha := by
  split at h
  · exact ⟨_, ‹_›, by simpa using h⟩
  · cases h

/-- A control block whose fault queue lies at 0x1800, its home 0x200800, with this producer and size (R327). -/
def recorded (producer size : Nat) : State :=
  { handled with mem := handled.mem.writeBytes 0x200008 (leBytes 8 0x1800 ++ leBytes 4 size ++ leBytes 4 producer) }

/-- The last record of a queue of four; a full queue; no control block. -/
theorem witness_RouteStops_record :
    (recorded 3 4).mem.wf = true ∧ (recorded 3 4).marks = [] ∧
      ((recorded 3 4).ctx? 1).any (fun c => c.id == 1 && c.recordTable == 0x1000) = true ∧
      ((recorded 3 4).controlBlock 1).any (fun b => leAt b 8 8 == 0x1800 && leAt b 16 4 == 4 && leAt b 20 4 == 3) = true ∧
      Reaches (recorded 3 4) 1 0x18C0 64 0x2008C0 [0x200014 / 64] ∧ Reaches (recorded 3 4) 1 0x1014 4 0x200014 [0x2008C0 / 64] ∧
      ((recorded 4 4).controlBlock 1).any (fun b => leAt b 16 4 == 4 && leAt b 20 4 == 4) = true ∧ Reaches (recorded 4 4) 1 0x1018 1 0x200018 [] ∧
      base.controlBlock 1 = none := by
  refine ⟨by decide +kernel, by decide +kernel, by decide +kernel, by decide +kernel, ?_, ?_, by decide +kernel, ?_, by decide +kernel⟩ <;>
    exact ⟨by decide, by decide, walk_home (by decide +kernel), by decide, by decide +kernel, by decide +kernel⟩

theorem test_record_written :
    (let r := (recorded 3 4).faultRecord 1 (leBytes 64 0x1122)
     r.2 == 0x18C0 && r.1.mem.readNat 0x2008C0 8 == 0x1122 && r.1.mem.readNat 0x200014 4 == 4) = true ∧
      (let r := (recorded 4 4).faultRecord 1 (leBytes 64 0x1122)
       r.2 == 0 && r.1.mem.readNat 0x200018 1 == 1 && r.1.mem.readNat 0x200014 4 == 4) = true := by decide +kernel

theorem test_rfe_needs_supervisor : nextHas (exec .rfe handled) (fun t => t.w.stopped) = true := by decide +kernel

/-! ### Binary32 and predicates (R57, R159 to R163) -/

theorem witness_VectorFloats :
    (∀ k, floatLane (hand 3#32).w k (.vfma 0 3 8 6 5) = some (8, fmaF32 3 0x40400000#32 0x33800000#32 0x40000000#32)) ∧
      (hand 3#32).precheck (.vfma 0 3 8 6 5) = none := by decide +kernel

/-- Compares of a NaN under the codes 2 and 6, and of two integers. -/
theorem witness_VectorCompares :
    (∀ k, compareLane (hand 3#32).w k (.vcmp 0 2 1 2 3) = some (1, decide ((0x7FFFFFFF#32 : Word).toInt < (0xFFFFFFFF#32 : Word).toInt), 0#32)) ∧
      (hand 3#32).precheck (.vcmp 0 2 1 2 3) = none ∧ (hand 3#32).precheck (.vfcmp 0 2 1 9 4) = none ∧
      nextHas (exec (.vfcmp 0 2 1 9 4) (hand 3#32)) (fun t => t.w.readP 1 == 0#32 && t.w.nflags == 1#32) = true ∧
      nextHas (exec (.vfcmp 0 6 1 9 4) (hand 3#32)) (fun t => t.w.readP 1 == 3#32 && t.w.nflags == 0#32) = true := by decide +kernel

/-- 1.0, the smallest denormal, minus zero, the largest finite value of E4M3, an infinity and a NaN. -/
theorem test_values : valueOf 0x3F800000#32 = .real 1 ∧ valueOf 0x00000001#32 = .real (2 ^ (-149 : ℤ)) ∧ valueOf 0x80000000#32 = .real 0 ∧
    fmtE4M3.value 0x7E = .real 448 ∧ fmtE5M2.value 0xFC = .inf true ∧ fmtE4M3.value 0xFF = .nan ∧ lgValue 32 = .nan ∧ lgValue 16 = .real 1 := by
  decide +kernel

theorem witness_FloatsRoundOnce : (5 : Nat) < 8 ∧ (6 : Nat) < 8 ∧ convert 0#2 5 6 false 0x7E#32 = (0x5F#32, 0#32) := by decide +kernel

/-- R59 at a general argument, its ends and what it rounds: 1/3, the reciprocals of the largest value and of the least power of two whose
reciprocal is in range and of the next below it, sqrt 2, 1/sqrt 2, and -2, -4 and 2^23 for the clauses on sign and size. -/
theorem witness_FloatsRoundOnce_functions :
    valueOf 0x40400000#32 = .real 3 ∧ elementary 0 0x40400000#32 = (0x3EAAAAAB#32, 0#32) ∧ elementary 0 0x7F7FFFFF#32 = (0x00200000#32, 0#32) ∧
      valueOf 0x00400000#32 = .real (2 ^ (-127 : ℤ)) ∧ elementary 0 0x00400000#32 = (0x7F000000#32, 0#32) ∧
      valueOf 0x80200000#32 = .real (-(2 ^ (-128 : ℤ))) ∧ fmtFP32.beyondTop 0 (-(2 ^ (-128 : ℤ)))⁻¹ ∧ elementary 0 0x80200000#32 = (0xFF800000#32, 4#32) ∧
      elementary 2 0x40000000#32 = (0x3FB504F3#32, 0#32) ∧ elementary 1 0x40000000#32 = (0x3F3504F3#32, 0#32) ∧
      valueOf 0xC0800000#32 = .real (-4) ∧ elementary 2 0xC0800000#32 = (0x7FC00000#32, 1#32) ∧
      valueOf 0xCB000000#32 = .real (-(2 ^ 23)) ∧ elementary 5 0xCB000000#32 = (0x80000000#32, 0#32) ∧ elementary 6 0xCB000000#32 = (0x3F800000#32, 0#32) ∧
      isNaN 0x7F800001#32 = true ∧ elementary 3 0x7F800001#32 = (0x7FC00000#32, 1#32) := by
  unfold Fmt.beyondTop outward
  refine ⟨?_, ?_, ?_, ?_, ?_, ?_, ?_, ?_, ?_, ?_, ?_, ?_, ?_, ?_, ?_, ?_, ?_⟩ <;> decide +kernel

/-- A row tile of ones in LG6 against one of its columns. -/
def onesA : Tile := ⟨0, 7, 6, [List.replicate 64 16], 0, 0, 0, []⟩
def onesB : Tile := ⟨0, 6, 7, List.replicate 64 [16], 0, 0, 0, []⟩

theorem witness_MatrixNumbers :
    oneFamily (aCode 0x8000#32) (bCode 0x8000#32) ∧ onesB.codes.length = 64 ∧ [(bandStart 1 0, bandStart 1 1)] = [(0, 128)] ∧
      (List.range 6).map (bandStart 6) = [0, 24, 48, 72, 96, 112] ∧ (List.range 5).map (bandStart 5) = [0, 32, 56, 80, 104] ∧
      (128 : Nat) % 2 ^ 6 = 0 ∧ Largest (List.replicate 32 0x43EB0000#32) 470 ∧ BlockExponent 1 470 0 ∧ BlockExponent 0 470 6 := by
  refine ⟨by unfold oneFamily; decide, by decide, by decide, by decide, by decide, by decide, ⟨⟨_, List.mem_replicate.mpr ⟨by decide, rfl⟩, 470, ?_, by decide +kernel⟩, ?_⟩,
    by unfold BlockExponent; decide +kernel, by unfold BlockExponent; decide +kernel⟩
  · decide +kernel
  · intro w hw
    obtain ⟨_, rfl⟩ := List.mem_replicate.mp hw
    exact ⟨470, by decide +kernel, by decide +kernel⟩

/-- R44: 17 + 17 gives 1.4140625. R56: 460 drained to E4M3 is 448, 470 is 448 with saturation. R50: 1.0234375 is q = 16. -/
theorem test_matrix_numbers :
    chunk 0#32 [(0, 17, 17)] (fun _ => .fin false 1 0) = (0x3FB50000#32, 0#32) ∧ chunk 0#32 ((List.range 64).map fun k => (k, 16, 16)) (fun _ => .fin false 1 0) = (0x42800000#32, 0#32) ∧
      drainRow 1 false [0x43E60000#32] = ([0x7E], [], 0#32) ∧ drainRow 1 false [0x43EB0000#32] = ([0x7E], [], 0x20#32) ∧
      (drainRow 0 false [0x3F830000#32]).1 = [16] := by decide +kernel

/-! ### Cross-thread instructions (R31, R166 to R172) -/

/-- A legacy warp whose wave 1 issues, all its lanes active; the wave's s12 is place 76 of the bank (R31). -/
def legacyWave : State := (hand 0xFFFF0000#32).setW fun w =>
  { w with legacy := true, cur := 1, scalars := scalarBank [(76, 0x5678#32)], slots := w.slots.set 1 ⟨.live, { w.frag with mask := 0xFFFF0000#32 }⟩ }

theorem witness_ShuffleAndIdentity :
    (hand 0xFFFFFFFF#32).precheck (.vshfl 1 3 20 1 5) = none ∧ (hand 0xFFFFFFFF#32).precheck (.vgetid 20 2) = none ∧
      (hand 0xFFFFFFFF#32).team.isSome = true ∧ (hand 0xFFFFFFFF#32).w.legacy = false := by decide +kernel

theorem witness_ShuffleAndIdentity_legacy :
    legacyWave.precheck (.vshfl 1 3 20 1 5) = none ∧ legacyWave.w.legacy = true ∧
      (∀ k : Fin 32, on legacyWave.w k = true → k.val / 16 = legacyWave.w.cur.val) ∧
      nextHas (exec (.vshfl 1 0 20 1 12) legacyWave) (fun t => (t.w.readV 20)[(31 : Fin 32)] == 24#32) = true ∧
      nextHas (exec (.vgetid 20 1) legacyWave) (fun t => (t.w.readV 20)[(31 : Fin 32)] == 31#32) = true := by decide +kernel

theorem witness_ReductionsAndScans :
    (hand 0xF#32).precheck (.vvote 10 0 1) = none ∧ (hand 0xF#32).precheck (.vred 10 1 10) = none ∧ (hand 0xF#32).precheck (.vscan 20 1 0) = none ∧
      (hand 0xF#32).precheck (.vhadm 20 4 0) = none ∧ (hand 0xF#32).w.legacy = false := by decide +kernel

theorem witness_ReductionsAndScans_legacy :
    legacyWave.precheck (.vvote 10 0 0) = none ∧ legacyWave.precheck (.vred 10 1 0) = none ∧ legacyWave.precheck (.vscan 20 1 0) = none ∧
      legacyWave.precheck (.vhadm 20 4 0) = none ∧ nextHas (exec (.vred 10 1 0) legacyWave) (fun t => t.w.readS 10 == 376#32) = true := by decide +kernel

end Sys2Proof.Tests
end

section
/-!
SUPPORT and PROOF. Whose turn the next step gives (R13, R14, R311; log 1), and a turn whose word is no instruction (R101, R124).
-/

namespace Sys2Proof.Machine

open Sys2Proof.Claims

/-! ### Time that passes leaves the schedule alone -/

@[simp] theorem State.mapWarps_agenda (s : State) (p : Warp → Bool) (f : Warp → Warp) : (s.mapWarps p f).agenda = s.agenda := rfl
@[simp] theorem State.mapWarps_eventFirst (s : State) (p : Warp → Bool) (f : Warp → Warp) : (s.mapWarps p f).eventFirst = s.eventFirst := rfl

@[simp] theorem State.passTo_agenda (s : State) (cycle : Nat) : (s.passTo cycle).agenda = s.agenda := rfl
@[simp] theorem State.passTo_eventFirst (s : State) (cycle : Nat) : (s.passTo cycle).eventFirst = s.eventFirst := rfl

@[simp] theorem State.withdrawSwitch_agenda (s : State) (id : TeamId) : (s.withdrawSwitch id).agenda = s.agenda := rfl
@[simp] theorem State.withdrawSwitch_eventFirst (s : State) (id : TeamId) : (s.withdrawSwitch id).eventFirst = s.eventFirst := rfl

@[simp] theorem State.lapseTeam_agenda (s : State) (t : Team) : (s.lapseTeam t).agenda = s.agenda := by
  unfold State.lapseTeam; split <;> simp

@[simp] theorem State.lapseTeam_eventFirst (s : State) (t : Team) : (s.lapseTeam t).eventFirst = s.eventFirst := by
  unfold State.lapseTeam; split <;> simp

@[simp] theorem State.lapse_agenda (s : State) : s.lapse.agenda = s.agenda :=
  foldl_keeps (fun t => t.agenda = s.agenda) State.lapseTeam (fun t x h => (t.lapseTeam_agenda x).trans h) _ rfl

@[simp] theorem State.lapse_eventFirst (s : State) : s.lapse.eventFirst = s.eventFirst :=
  foldl_keeps (fun t => t.eventFirst = s.eventFirst) State.lapseTeam (fun t x h => (t.lapseTeam_eventFirst x).trans h) _ rfl

@[simp] theorem State.tick_agenda (s : State) : s.tick.agenda = s.agenda := State.lapse_agenda _
@[simp] theorem State.tick_eventFirst (s : State) : s.tick.eventFirst = s.eventFirst := State.lapse_eventFirst _
@[simp] theorem State.tick_freeIx (s : State) : s.tick.freeIx = s.freeIx + 1 := rfl

/-! ### The next step gives a slot its turn -/

/-- Where no turn of a function must close (R311), a step lets time pass and makes the next move. -/
theorem step_of_noTurnDue {s : State} (h : ∀ p ∈ s.parts, s.turnDue p = false) : step s = s.tick.turn := by
  have none_due : s.parts.find? s.turnDue = none := List.find?_eq_none.mpr fun p hp => by simp [h p hp]
  simp only [step, State.run, none_due]

theorem State.turn_of_agenda {s : State} {m : Move} {rest : List Move} (h : s.agenda = m :: rest) :
    s.turn = { s with agenda := rest }.move m := by
  simp only [State.turn, h]

theorem State.turn_of_agenda_nil {s : State} (h : s.agenda = []) : s.turn = s.schedule := by
  simp only [State.turn, h]

/-- The move of an active warp's slot that may issue. -/
theorem State.move_issue {u : State} {id : WarpId} {slot : Fin 2} {w : Warp} (found : u.warp? id = some w) (active : w.active = true)
    (ready : (u.readySlots w).head? = some slot) : u.move (.issue id slot) = u.issueAt id slot := by
  simp [State.move, found, active, ready]

/-- The schedule issues where it is not an event's turn and no timer is looked at first. -/
theorem State.schedule_issue {u : State} {id : WarpId} {slot : Fin 2} (first : u.eventFirst = false) (untimed : u.freeIx % 4096 ≠ 0)
    (next : u.nextIssue = some (id, slot)) : u.schedule = u.issueAt id slot := by
  simp [State.schedule, first, untimed, next]

/-- By the agenda or by the schedule, the slot whose turn comes issues in the next step. -/
theorem step_of_turnOf {s u : State} {id : WarpId} {slot : Fin 2} {w : Warp} {b : CodeBlock} (turn : TurnOf s id slot u)
    (fetched : Fetched u id slot w b) : step s = u.issueAt id slot := by
  obtain ⟨noneDue, byAgenda | bySchedule⟩ := turn
  · obtain ⟨rest, agenda, rfl⟩ := byAgenda
    obtain ⟨found, active, ready, -⟩ := fetched
    calc step s = s.tick.turn := step_of_noTurnDue noneDue
      _ = { s.tick with agenda := rest }.move (.issue id slot) := State.turn_of_agenda (by simp [agenda])
      _ = _ := State.move_issue found active ready
  · obtain ⟨agenda, first, untimed, rfl, next⟩ := bySchedule
    calc step s = s.tick.turn := step_of_noTurnDue noneDue
      _ = s.tick.schedule := State.turn_of_agenda_nil (by simp [agenda])
      _ = _ := State.schedule_issue (by simp [first]) (by simpa using untimed) next

/-! ### The turn of a slot whose block is fetched -/

theorem reedSlot_eq_false_iff (a : Addr) : reedSlot a = false ↔ a.toNat / 4 % 8 ≠ 0 := by
  simp [reedSlot, ← BitVec.toNat_inj, BitVec.extractLsb'_toNat, Nat.shiftRight_eq_div_pow]

/-- Such a slot goes on with the word at its program counter: no fault waits, no join is reached, and nothing is fetched. -/
theorem State.issueAt_fetched {u : State} {id : WarpId} {slot : Fin 2} {w : Warp} {b : CodeBlock} (fetched : Fetched u id slot w b) :
    u.issueAt id slot = (u.prepare id slot).issueFrom w b := by
  obtain ⟨found, -, -, noFault, noJoin, noReed, block⟩ := fetched
  have cur : (u.prepare id slot).w.cur = slot := rfl
  have atInstr : (u.prepare id slot).atInstr = true := by simpa [State.atInstr, cur] using ⟨noFault, noJoin⟩
  simp [State.issueAt, atInstr, (reedSlot_eq_false_iff _).mpr noReed, block, found]

/-! ### Words that are no instruction (R101, R124) -/

/-- Bits 31:29 of a word. -/
theorem topBits_ne_zero_iff (w : Word) : w.extractLsb' 29 3 ≠ 0#3 ↔ w.toNat / 2 ^ 29 ≠ 0 := by
  have top : w.toNat / 2 ^ 29 < 2 ^ 3 := by omega
  rw [ne_eq, ← BitVec.toNat_inj, BitVec.extractLsb'_toNat, Nat.shiftRight_eq_div_pow, Nat.mod_eq_of_lt top, BitVec.toNat_zero]

/-- A block holds no instruction at an address where its reed word has a reserved bit or the word there decodes to none. -/
theorem CodeBlock.instr_eq_none_iff (b : CodeBlock) (pc : Addr) :
    b.instr pc = none ↔ b.reed.toNat / 2 ^ 29 ≠ 0 ∨ ∀ i, decode (b.word pc) ≠ .ok i := by
  rw [← topBits_ne_zero_iff]
  by_cases reserved : b.reed.extractLsb' 29 3 = 0#3
  · cases decoded : decode (b.word pc) <;> simp [CodeBlock.instr, reserved, decoded]
  · simp [CodeBlock.instr, reserved]

/-- Where the block holds no instruction the fragment raises 0x01, and nothing issues. -/
theorem State.issueFrom_undecodable {s : State} {b : CodeBlock} (old : Warp) (h : b.instr s.pc = none) :
    s.issueFrom old b = .next (s.markBlocks (s.raise { code := 0x01#8, mask := s.w.frag.mask }) none).settled := by
  simp only [State.issueFrom, h]
  rfl

/-- Settles O8: the turn is that of a slot whose block is fetched, and the block holds no instruction at its program counter. -/
theorem undecodableWord : Obligations.UndecodableWord := by
  intro s u id slot w b turn fetched p undecodable
  calc step s = u.issueAt id slot := step_of_turnOf turn fetched
    _ = p.issueFrom w b := State.issueAt_fetched fetched
    _ = _ := State.issueFrom_undecodable w ((b.instr_eq_none_iff p.pc).mpr undecodable)

end Sys2Proof.Machine
end

section
/-!
SUPPORT. What the statements say of a fragment that moves on (`Advanced`: R103, R182, R184) is what `Warp.advance` does.
-/

namespace Sys2Proof.Machine

open Sys2Proof.Claims

/-! ### The sequential successor (R103) -/

theorem nextPc_eq_nextOf (pc : Addr) : nextPc pc = nextOf pc := by
  have reed : reedSlot (pc + 4#64) = true ↔ (pc + 4#64).toNat / 4 % 8 = 0 := by
    rw [← not_iff_not, Bool.not_eq_true, reedSlot_eq_false_iff]
  simp only [nextPc, nextOf, reed]

/-! ### The innermost level (R182) -/

/-- A level that the fragment owns, or by which it is enclosed, is a live one whose owner holds the fragment's threads. -/
theorem Warp.owns_or_enclosed_iff (w : Warp) (l : Fin 4) (f : Mask) :
    (w.ownsLevel l f || w.enclosed l f) = true ↔ w.loops[l].live = true ∧ f &&& ~~~(ownerOf w l) = 0#32 := by
  change (w.loops[l].live && f == ownerOf w l || w.loops[l].live && (f &&& ~~~(ownerOf w l)) == 0#32 && f != ownerOf w l) = true ↔ _
  by_cases owner : f = ownerOf w l
  · simp [← owner, BitVec.and_not_self]
  · simp [owner]

/-- A fold that keeps the later of two by their order ends at the element that all others precede. -/
theorem foldl_latest {α : Type} {keep : Option α → α → Option α} {order : α → Nat} {l : α} (first : ∀ x, keep none x = some x)
    (later : ∀ b x, keep (some b) x = if order b < order x then some x else some b) (xs : List α) (best : Option α)
    (before : ∀ x, x ∈ xs ∨ best = some x → x ≠ l → order x < order l) (present : l ∈ xs ∨ best = some l) :
    xs.foldl keep best = some l := by
  induction xs generalizing best with
  | nil => simpa using present
  | cons x xs ih =>
    have kept : keep best x = some x ∧ (∀ b, best = some b → order b < order x) ∨
        keep best x = best ∧ ∃ b, best = some b ∧ order x ≤ order b := by
      cases best with
      | none => exact .inl ⟨first x, nofun⟩
      | some b =>
        obtain earlier | notEarlier := Nat.lt_or_ge (order b) (order x)
        · exact .inl ⟨by rw [later, if_pos earlier], fun _ same => Option.some.inj same ▸ earlier⟩
        · exact .inr ⟨by rw [later, if_neg notEarlier.not_gt], b, rfl, notEarlier⟩
    obtain ⟨new, passed⟩ | ⟨old, b, rfl, notPassed⟩ := kept
    · rw [List.foldl_cons, new]
      apply ih <;> grind
    · rw [List.foldl_cons, old]
      apply ih <;> grind

/-- The level that the statements call innermost is the one the machine finds. -/
theorem Warp.innermost_of_owns {w : Warp} {l : Fin 4} (h : OwnsInnermost w l) : w.innermost w.frag.mask = some l := by
  obtain ⟨level, live, owner, latest⟩ := h
  refine foldl_latest (fun _ => rfl) (fun _ _ => rfl) _ none (fun m found other => ?_) (.inl ?_)
  · obtain ⟨inWave, holds⟩ := List.mem_filter.mp (found.resolve_right nofun)
    obtain ⟨mLive, mOwner⟩ := (w.owns_or_enclosed_iff m _).mp holds
    exact latest m inWave other mLive mOwner
  · exact List.mem_filter.mpr ⟨level, (w.owns_or_enclosed_iff l _).mpr ⟨live, by rw [owner]; exact BitVec.and_not_self _⟩⟩

/-! ### The loop-end action (R184) -/

/-- Where no live level ends at the address, the loop-end action leaves the levels and goes on to the sequential successor. -/
theorem Warp.loopEnd_of_noEnd {w : Warp} {pc : Addr} (h : ∀ l : Fin 4, w.loops[l].live = true → w.loops[l].le ≠ pc) :
    ∀ fuel, w.loopEnd pc fuel = (w, nextPc pc)
  | 0 => rfl
  | fuel + 1 => by
    unfold Warp.loopEnd
    split
    · rfl
    · rename_i l _
      have notAtEnd : (w.ownsLevel l w.frag.mask && w.loops[l].le == pc) = false := by
        by_cases live : w.loops[l].live = true
        · simp [h l live, -Fin.getElem_fin]
        · simp [Warp.ownsLevel, live, -Fin.getElem_fin]
      rw [notAtEnd]
      rfl

/-- At the end word of the innermost level, which the fragment owns, the count is lowered; where it runs out the level is freed. -/
theorem Warp.loopEnd_of_owns {w : Warp} {l : Fin 4} (owns : OwnsInnermost w l) (fuel : Nat) :
    w.loopEnd w.loops[l].le (fuel + 1) =
      if w.loops[l].lc = 1#32 then (w.freeLevel l).loopEnd w.loops[l].le fuel
      else ({ w with loops := w.loops.set l { w.loops[l] with lc := w.loops[l].lc - 1#32 } }, w.loops[l].ls) := by
  have innermost := Warp.innermost_of_owns owns
  obtain ⟨-, live, owner, -⟩ := owns
  have owned : w.ownsLevel l w.frag.mask = true := by
    change (w.loops[l].live && w.frag.mask == ownerOf w l) = true
    simp [live, owner, -Fin.getElem_fin]
  have runsOut : w.loops[l].lc - 1#32 = 0#32 ↔ w.loops[l].lc = 1#32 := sub_eq_zero
  rw [Warp.loopEnd]
  by_cases last : w.loops[l].lc = 1#32 <;> simp [innermost, owned, runsOut, last, -Fin.getElem_fin]

theorem Warp.advance_loops (w : Warp) : w.advance.loops = (w.loopEnd w.frag.pc 5).1.loops := rfl

theorem Warp.advance_pc (w : Warp) : w.advance.frag.pc = (w.loopEnd w.frag.pc 5).2 := by
  rw [Warp.advance, Warp.loopEnd_only]
  simp [Warp.setFrag, Warp.frag]

/-- At the end word of its innermost level the fragment moves on as R184 gives it. -/
theorem Warp.advance_loopEnded {w : Warp} {l : Fin 4} (owns : OwnsInnermost w l) (atEnd : w.loops[l].le = w.frag.pc) :
    LoopEnded w w.advance l := by
  have act := Warp.loopEnd_of_owns owns 4
  rw [atEnd] at act
  refine ⟨fun more => ?_, fun last alone => ?_⟩
  · rw [if_neg more] at act
    rw [Warp.advance_pc, Warp.advance_loops, act]
    exact ⟨rfl, rfl⟩
  · have noEnd (m : Fin 4) : (w.freeLevel l).loops[m].live = true → (w.freeLevel l).loops[m].le ≠ w.frag.pc := by
      by_cases same : m = l
      · simp [same, Warp.freeLevel]
      · have differ : l.val ≠ m.val := fun e => same (Fin.ext e.symm)
        simpa [Warp.freeLevel, differ] using alone m same
    rw [if_pos last, Warp.loopEnd_of_noEnd noEnd] at act
    rw [Warp.advance_pc, Warp.advance_loops, act, nextPc_eq_nextOf]
    exact ⟨rfl, rfl⟩

/-- Advancing moves the issuing fragment on as R103 and R184 give it. -/
theorem Warp.advance_advanced (w : Warp) : Advanced w w.advance := by
  refine ⟨w.advance_slots, fun noEnd => ?_, fun _ owns atEnd => Warp.advance_loopEnded owns atEnd⟩
  rw [Warp.advance_pc, Warp.advance_loops, Warp.loopEnd_of_noEnd noEnd, nextPc_eq_nextOf]
  exact ⟨rfl, rfl⟩

/-- A change before the advance that leaves the fragments and the loop levels, as a write to a register does, is not seen in how it moves. -/
theorem advanced_of_same_levels {v w t : Warp} (slots : v.slots = w.slots) (cur : v.cur = w.cur) (loops : v.loops = w.loops)
    (legacy : v.legacy = w.legacy) (exited : v.exited = w.exited) (h : Advanced v t) : Advanced w t := by
  obtain ⟨⟩ := v
  obtain ⟨⟩ := w
  dsimp only at slots cur loops legacy exited
  subst slots cur loops legacy exited
  exact h

end Sys2Proof.Machine
end

section
/-!
SUPPORT. The rules' own arithmetic (integers, naturals, single bits), in which the statements are written, gives what the operations of
the machine give (R119, R120, R136 to R142, R145 to R147).
-/

namespace Sys2Proof.Machine

open Sys2Proof.Claims

/-! ### The integer mode (R120) -/

theorem limited_eq_clampTo (n : Nat) {lo hi : Int} (x : Int) (h : lo ≤ hi) :
    limited n lo hi x = (BitVec.ofInt n (clampTo lo hi x).1, (clampTo lo hi x).2) := by
  unfold limited clampTo flagSat
  obtain below | notBelow := Int.lt_or_le x lo
  · simp [below, show min hi x = x by omega, show max lo x = lo by omega, show ¬ lo ≤ x by omega]
  · obtain above | inside := Int.lt_or_le hi x
    · simp [above, show ¬ x < lo by omega, show min hi x = hi by omega, show max lo hi = hi by omega, show ¬ x ≤ hi by omega]
    · simp [show ¬ x < lo by omega, show ¬ hi < x by omega, notBelow, inside]

/-- The mode's cases, where the exact signed result wraps to the machine's. -/
theorem inMode_eq_byMode {n : Nat} (m : BitVec 2) {wrapped : BitVec n} {signed unsigned : Int} (h : BitVec.ofInt n signed = wrapped) :
    inMode n m signed unsigned = byMode m wrapped signed unsigned := by
  have half : (0 : Int) < 2 ^ (n - 1) := by positivity
  have full : (0 : Int) < 2 ^ n := by positivity
  obtain rfl | rfl | ⟨notSigned, notUnsigned⟩ : m = 1#2 ∨ m = 2#2 ∨ m ≠ 1#2 ∧ m ≠ 2#2 := by tauto
  · simp [inMode, byMode, limited_eq_clampTo n signed (show -2 ^ (n - 1) ≤ (2 : Int) ^ (n - 1) - 1 by omega)]
  · simp [inMode, byMode, limited_eq_clampTo n unsigned (show 0 ≤ (2 : Int) ^ n - 1 by omega)]
  · have other : m = 0#2 ∨ m = 3#2 := by bv_omega
    obtain rfl | rfl := other <;> simp [inMode, byMode, h]

theorem inMode_add {n : Nat} (m : BitVec 2) (x y : BitVec n) :
    inMode n m (x.toInt + y.toInt) (x.toNat + y.toNat) = addMode m x y :=
  inMode_eq_byMode m (by rw [BitVec.ofInt_add, BitVec.ofInt_toInt, BitVec.ofInt_toInt])

theorem inMode_sub {n : Nat} (m : BitVec 2) (x y : BitVec n) :
    inMode n m (x.toInt - y.toInt) ((x.toNat : Int) - y.toNat) = subMode m x y :=
  inMode_eq_byMode m (by
    rw [Int.sub_eq_add_neg, BitVec.ofInt_add, BitVec.ofInt_neg, BitVec.ofInt_toInt, BitVec.ofInt_toInt, ← BitVec.sub_eq_add_neg])

theorem inMode_mul {m : BitVec 2} (notHigh : m ≠ 3#2) (x y : Word) :
    inMode 32 m (x.toInt * y.toInt) ((x.toNat : Int) * y.toNat) = mulMode m x y := by
  have low : mulMode m x y = byMode m (x * y) (x.toInt * y.toInt) ((x.toNat : Int) * y.toNat) := by
    unfold mulMode
    split
    · exact absurd rfl notHigh
    · rfl
  rw [low]
  exact inMode_eq_byMode m (by rw [BitVec.ofInt_mul, BitVec.ofInt_toInt, BitVec.ofInt_toInt])

/-! ### Division (R138) -/

theorem divide_zero (u : Bool) (x : Word) : divide u x 0#32 = (0xFFFFFFFF#32, x) := rfl

theorem divide_unsigned {x y : Word} (h : y ≠ 0#32) :
    divide true x y = (BitVec.ofInt 32 (x.toNat / y.toNat : Nat), BitVec.ofInt 32 (x.toNat - (x.toNat / y.toNat : Nat) * y.toNat)) := by
  have remainder : (x.toNat : Int) - (x.toNat / y.toNat : Nat) * y.toNat = (x.toNat % y.toNat : Nat) := by
    have := Nat.div_add_mod' x.toNat y.toNat
    omega
  rw [remainder, BitVec.ofInt_natCast, BitVec.ofInt_natCast]
  simp [divide, h, BitVec.udiv_def, BitVec.umod_def]

/-- The overflow case of R138 is what the exact quotient and remainder wrap to. -/
theorem divide_signed {x y : Word} (h : y ≠ 0#32) :
    divide false x y = (BitVec.ofInt 32 (x.toInt.tdiv y.toInt), BitVec.ofInt 32 (x.toInt - x.toInt.tdiv y.toInt * y.toInt)) := by
  have remainder : x.toInt - x.toInt.tdiv y.toInt * y.toInt = x.toInt.tmod y.toInt := by rw [Int.tmod_def, mul_comm]
  by_cases overflow : x = 0x80000000#32 ∧ y = 0xFFFFFFFF#32
  · obtain ⟨rfl, rfl⟩ := overflow
    decide
  · rw [remainder]
    simp [divide, h, overflow]

/-! ### Single bits (R139, R142, R145) -/

theorem testBit_foldl_range (f : Nat → Bool) (n i : Nat) :
    ((List.range n).foldl (fun n i => if f i then n + 2 ^ i else n) 0).testBit i = (decide (i < n) && f i) := by
  induction n generalizing i with
  | zero => simp
  | succ n ih =>
    rw [List.range_succ, List.foldl_append]
    generalize (List.range n).foldl (fun n i => if f i then n + 2 ^ i else n) 0 = low at ih
    have bound : low < 2 ^ n := Nat.lt_pow_two_of_testBit _ fun j hj => by simp [ih, hj.not_gt]
    have joined : low + 2 ^ n = 2 ^ n ||| low := by simpa [Nat.add_comm] using Nat.two_pow_add_eq_or_of_lt bound 1
    by_cases isOne : f n = true
    · simp only [List.foldl_cons, List.foldl_nil, if_pos isOne, joined, Nat.testBit_or, Nat.testBit_two_pow, ih]
      grind
    · simp only [List.foldl_cons, List.foldl_nil, if_neg isOne, ih]
      grind

theorem getLsbD_wordOf (f : Nat → Bool) (i : Nat) : (wordOf f).getLsbD i = (decide (i < 32) && f i) := by
  simp [wordOf, BitVec.getLsbD_ofNat, testBit_foldl_range]

/-- The word of the bits of a word. -/
theorem wordOf_eq {f : Nat → Bool} {x : Word} (h : ∀ i < 32, f i = x.getLsbD i) : wordOf f = x :=
  BitVec.eq_of_getLsbD_eq fun i hi => by rw [getLsbD_wordOf, decide_eq_true hi, Bool.true_and, h i hi]

theorem wordOf_and (x y : Word) : (wordOf fun i => x.getLsbD i && y.getLsbD i) = x &&& y :=
  wordOf_eq fun _ _ => BitVec.getLsbD_and.symm

theorem wordOf_or (x y : Word) : (wordOf fun i => x.getLsbD i || y.getLsbD i) = x ||| y :=
  wordOf_eq fun _ _ => BitVec.getLsbD_or.symm

theorem wordOf_xor (x y : Word) : (wordOf fun i => x.getLsbD i != y.getLsbD i) = x ^^^ y :=
  wordOf_eq fun _ _ => BitVec.getLsbD_xor.symm

theorem wordOf_andNot (x y : Word) : (wordOf fun i => x.getLsbD i && !y.getLsbD i) = x &&& ~~~y :=
  wordOf_eq fun i hi => by simp [hi]

/-- The bits of a zero-extended immediate. -/
theorem getLsbD_zeroExtended (imm : BitVec 10) {i : Nat} (h : i < 32) :
    (imm.setWidth 32).getLsbD i = (decide (i < 10) && imm.getLsbD i) := by
  rw [BitVec.getLsbD_setWidth, decide_eq_true h]
  by_cases inside : i < 10
  · rw [decide_eq_true inside]
  · rw [BitVec.getLsbD_of_ge imm i (by omega), Bool.and_false, Bool.and_false]

theorem wordOf_andImmediate (x : Word) (imm : BitVec 10) :
    (wordOf fun i => x.getLsbD i && decide (i < 10) && imm.getLsbD i) = x &&& imm.setWidth 32 :=
  wordOf_eq fun i hi => by rw [BitVec.getLsbD_and, getLsbD_zeroExtended imm hi, Bool.and_assoc]

theorem wordOf_orImmediate (x : Word) (imm : BitVec 10) :
    (wordOf fun i => x.getLsbD i || (decide (i < 10) && imm.getLsbD i)) = x ||| imm.setWidth 32 :=
  wordOf_eq fun i hi => by rw [BitVec.getLsbD_or, getLsbD_zeroExtended imm hi]

theorem wordOf_xorImmediate (x : Word) (imm : BitVec 10) :
    (wordOf fun i => x.getLsbD i != (decide (i < 10) && imm.getLsbD i)) = x ^^^ imm.setWidth 32 :=
  wordOf_eq fun i hi => by rw [BitVec.getLsbD_xor, getLsbD_zeroExtended imm hi]

theorem ones_eq_popCount (x : Word) : ones x = popCount x := by
  rw [ones, popCount, List.countP_eq_length_filter]

/-- The first one bit from the top is the bit of the binary logarithm. -/
theorem leading_eq_leadingZeros (x : Word) : leading x = leadingZeros x := by
  by_cases zero : x = 0#32
  · subst zero; rfl
  · have nonzero : x.toNat ≠ 0 := fun e => zero (BitVec.eq_of_toNat_eq e)
    have top : x.toNat.log2 < 32 := (Nat.log2_lt nonzero).mpr x.isLt
    have first : (List.range 32).find? (fun i => x.getLsbD (31 - i)) = some (31 - x.toNat.log2) := by
      refine List.find?_range_eq_some.mpr ⟨?_, List.mem_range.mpr (by omega), fun j before => ?_⟩
      · rw [show 31 - (31 - x.toNat.log2) = x.toNat.log2 by omega]
        exact Nat.testBit_log2 nonzero
      · have above : x.toNat < 2 ^ (31 - j) := (Nat.log2_lt nonzero).mp (by omega)
        exact congrArg not (Nat.testBit_lt_two_pow above)
    rw [leading, leadingZeros, first, if_neg zero, Option.getD_some]

/-! ### Shifts (R139, R145) -/

theorem ofNat_mul_two_pow (x : Word) (k : Nat) : BitVec.ofNat 32 (x.toNat * 2 ^ k) = x <<< k :=
  BitVec.eq_of_toNat_eq (by rw [BitVec.toNat_ofNat, BitVec.toNat_shiftLeft, Nat.shiftLeft_eq])

theorem ofNat_div_two_pow (x : Word) (k : Nat) : BitVec.ofNat 32 (x.toNat / 2 ^ k) = x >>> k := by
  rw [← Nat.shiftRight_eq_div_pow, ← BitVec.toNat_ushiftRight, BitVec.ofNat_toNat, BitVec.setWidth_eq]

theorem ofInt_div_two_pow (x : Word) (k : Nat) : BitVec.ofInt 32 (x.toInt / 2 ^ k) = x.sshiftRight k := by
  rw [BitVec.sshiftRight_eq, Int.shiftRight_eq_div_pow, Nat.cast_pow, Nat.cast_ofNat]

/-! ### Order and conditions (R119, R140, R141) -/

/-- A choice by the order may be made strictly where equal keys choose one value. -/
theorem ite_le_eq_ite_lt {α β : Type} [LinearOrder α] {x y : α} {a b : β} (h : x = y → a = b) :
    (if x ≤ y then a else b) = if x < y then a else b := by
  obtain less | equal | greater := lt_trichotomy x y
  · rw [if_pos less.le, if_pos less]
  · rw [h equal, ite_self, ite_self]
  · rw [if_neg greater.not_ge, if_neg greater.not_gt]

theorem lesser_eq_minWord (n : Bool) (x y : Word) : lesser n x y = minWord n x y := by
  simp only [lesser, minWord, BitVec.slt, BitVec.ult, decide_eq_true_eq]
  cases n
  · exact ite_le_eq_ite_lt BitVec.eq_of_toInt_eq
  · exact ite_le_eq_ite_lt BitVec.eq_of_toNat_eq

theorem greater_eq_maxWord (n : Bool) (x y : Word) : greater n x y = maxWord n x y := by
  simp only [greater, maxWord, BitVec.slt, BitVec.ult, decide_eq_true_eq]
  cases n
  · exact ite_le_eq_ite_lt fun equal => (BitVec.eq_of_toInt_eq equal).symm
  · exact ite_le_eq_ite_lt fun equal => (BitVec.eq_of_toNat_eq equal).symm

/-- Some bit is set in both words. -/
theorem any_commonBit (x y : Word) : ((List.range 32).any fun i => x.getLsbD i && y.getLsbD i) = (x &&& y != 0#32) := by
  rw [Bool.eq_iff_iff, List.any_eq_true, bne_iff_ne]
  constructor
  · rintro ⟨i, -, common⟩ zero
    rw [← BitVec.getLsbD_and, zero, BitVec.getLsbD_zero] at common
    exact Bool.false_ne_true common
  · intro nonzero
    by_contra none
    refine nonzero (BitVec.eq_of_getLsbD_eq fun i inside => ?_)
    rw [BitVec.getLsbD_and, BitVec.getLsbD_zero, ← Bool.not_eq_true]
    exact fun common => none ⟨i, List.mem_range.mpr inside, common⟩

/-- No bit is set in both words. -/
theorem all_noCommonBit (x y : Word) : ((List.range 32).all fun i => !(x.getLsbD i && y.getLsbD i)) = (x &&& y == 0#32) := by
  rw [← List.not_any_eq_all_not, any_commonBit, bne, Bool.not_not]

/-- The eight codes of R119. -/
theorem holds_eq_condition (n : Bool) (c : BitVec 3) (x y : Word) : holds n c x y = condition n c x y := by
  have codes : c = 0#3 ∨ c = 1#3 ∨ c = 2#3 ∨ c = 3#3 ∨ c = 4#3 ∨ c = 5#3 ∨ c = 6#3 ∨ c = 7#3 := by
    revert c; decide
  have notLess (a b : Int) : decide (b ≤ a) = !decide (a < b) := (decide_eq_decide.mpr not_lt.symm).trans decide_not
  have notBelow (a b : Nat) : decide (b ≤ a) = !decide (a < b) := (decide_eq_decide.mpr not_lt.symm).trans decide_not
  obtain rfl | rfl | rfl | rfl | rfl | rfl | rfl | rfl := codes
  · rfl
  · exact decide_not
  · rfl
  · cases n
    · exact notLess _ _
    · exact notBelow _ _
  · rfl
  · exact notBelow _ _
  · exact all_noCommonBit x y
  · exact any_commonBit x y

theorem truth_eq_boolWord (b : Bool) : truth b = boolWord b := rfl

/-! ### Words joined from parts (R136, R145 to R147) -/

theorem ofInt_add_signed {n : Nat} (x : Word) (imm : BitVec n) : BitVec.ofInt 32 (x.toInt + imm.toInt) = x + imm.signExtend 32 := by
  rw [BitVec.ofInt_add, BitVec.ofInt_toInt, BitVec.signExtend]

theorem ofInt_mul_signed {n : Nat} (x : Word) (imm : BitVec n) : BitVec.ofInt 32 (x.toInt * imm.toInt) = x * imm.signExtend 32 := by
  rw [BitVec.ofInt_mul, BitVec.ofInt_toInt, BitVec.signExtend]

theorem ofNat_eq_append {m n : Nat} (hi : BitVec m) (lo : BitVec n) : BitVec.ofNat (m + n) (hi.toNat * 2 ^ n + lo.toNat) = hi ++ lo := by
  have joined : hi.toNat * 2 ^ n + lo.toNat = (hi ++ lo).toNat := by
    rw [BitVec.toNat_append, ← Nat.shiftLeft_add_eq_or_of_lt lo.isLt, Nat.shiftLeft_eq]
  rw [joined, BitVec.ofNat_toNat, BitVec.setWidth_eq]

/-- Bits 31:15 from the immediate, bits 14:0 from the word. -/
theorem ofNat_highImmediate (x : Word) (imm : BitVec 17) :
    BitVec.ofNat 32 (imm.toNat * 2 ^ 15 + x.toNat % 2 ^ 15) = imm ++ x.extractLsb' 0 15 := by
  rw [← ofNat_eq_append imm (x.extractLsb' 0 15), BitVec.extractLsb'_toNat, Nat.shiftRight_zero]

theorem pairOf_eq_readS64 (w : Warp) (r : Reg) : pairOf w r = w.readS64 r := ofNat_eq_append (w.readS (r + 1#7)) (w.readS r)

theorem ofNat_eq_lo32 (v : BitVec 64) : BitVec.ofNat 32 v.toNat = lo32 v := rfl

theorem ofNat_eq_hi32 (v : BitVec 64) : BitVec.ofNat 32 (v.toNat / 2 ^ 32) = hi32 v := by
  rw [← Nat.shiftRight_eq_div_pow]
  rfl

end Sys2Proof.Machine
end

section
/-!
PROOF. What every scalar instruction writes (R120, R136 to R142, R145 to R147).
-/

namespace Sys2Proof.Machine

open Sys2Proof.Claims

/-! ### An instruction that writes scalars and moves on -/

/-- A warp of which scalars, their undo entries and flags changed gives, when its fragment moves on, what the statements say of it. -/
theorem scalarResult_advance {s : State} {v : Warp} {writes : List (Reg × Word)} {flags : Word}
    (only : v = { s.w with scalars := v.scalars, logged := v.logged, nflags := s.w.nflags ||| flags })
    (reads : ∀ r, v.readS r = if r = 0#7 then 0#32 else ((writes.find? fun p => p.1 == r).map (·.2)).getD (s.w.readS r)) :
    ScalarResult s { s with w := v.advance } writes flags := by
  have scalars : v.advance.scalars = v.scalars := by rw [v.advance_only]
  have logged : v.advance.logged = v.logged := by rw [v.advance_only]
  refine ⟨?_, ?_, fun r => (v.readS_advance r).trans (reads r)⟩
  · dsimp only
    rw [scalars, logged]
    generalize v.scalars = regs, v.logged = log at only
    subst only
    exact congrArg (fun w => { s with w := w }) (Warp.advance_only _)
  · exact advanced_of_same_levels (by rw [only]) (by rw [only]) (by rw [only]) (by rw [only]) (by rw [only]) v.advance_advanced

theorem Warp.readS_writeS_one (w : Warp) (d r : Reg) (x : Word) :
    (w.writeS d x).readS r = if r = 0#7 then 0#32 else (((one d x).find? fun p => p.1 == r).map (·.2)).getD (w.readS r) := by
  rw [Warp.readS_writeS]
  by_cases here : r = d
  · simp [one, here]
  · simp [one, here, Ne.symm here]

/-- A pair's two registers differ, so it is no matter which is written first. -/
theorem Warp.readS_writeS_pair (w : Warp) (d r : Reg) (x y : Word) :
    ((w.writeS d x).writeS (d + 1#7) y).readS r =
      if r = 0#7 then 0#32 else (([(d, x), (d + 1#7, y)].find? fun p => p.1 == r).map (·.2)).getD (w.readS r) := by
  have differ : d ≠ d + 1#7 := by bv_omega
  rw [Warp.readS_writeS, Warp.readS_writeS]
  by_cases zero : r = 0#7
  · rw [if_pos zero, if_pos zero]
  · simp only [if_neg zero]
    by_cases low : r = d
    · simp [low, differ]
    · by_cases high : r = d + 1#7
      · simp [high, differ]
      · simp [low, high, Ne.symm low, Ne.symm high]

@[simp] theorem Warp.setFlags_zero (w : Warp) : w.setFlags 0#32 = w := by
  rw [Warp.setFlags, BitVec.or_zero]

theorem scalarResult_one (s : State) (d : Reg) (x flags : Word) : ScalarResult s (s.scalarResult d (x, flags)) (one d x) flags :=
  scalarResult_advance (congrArg (Warp.setFlags · flags) (s.w.writeS_only d x)) fun r => s.w.readS_writeS_one d r x

theorem scalarResult_pair (s : State) (d : Reg) (x y flags : Word) :
    ScalarResult s (s.finish fun w => ((w.writeS d x).writeS (d + 1#7) y).setFlags flags) [(d, x), (d + 1#7, y)] flags := by
  have only (w : Warp) : (w.writeS d x).writeS (d + 1#7) y =
      { w with scalars := ((w.writeS d x).writeS (d + 1#7) y).scalars, logged := ((w.writeS d x).writeS (d + 1#7) y).logged } := by
    have second := (w.writeS d x).writeS_only (d + 1#7) y
    generalize (w.writeS d x).writeS (d + 1#7) y = v at second ⊢
    rw [w.writeS_only d x] at second
    exact second
  exact scalarResult_advance (congrArg (Warp.setFlags · flags) (only s.w)) fun r => s.w.readS_writeS_pair d r x y

theorem scalarResult_two (s : State) (d : Reg) (v : BitVec 64) (flags : Word) :
    ScalarResult s (s.scalarResult64 d (v, flags)) (two d v) flags := by
  rw [two, ofNat_eq_lo32, ofNat_eq_hi32]
  exact scalarResult_pair s d (lo32 v) (hi32 v) flags

/-! ### The instructions -/

/-- An instruction that passes the checks does what its body says. -/
theorem exec_of_checked {i : Instr} {s : State} {body : State → State} (ok : s.precheck i = none)
    (arm : exec i s = .next (s.checked i body)) : exec i s = .next (body s) := by
  rw [arm, State.checked_none ok]

/-- The logical, shift, compare and count instructions (R139 to R142). -/
theorem exec_scalarLogic {i : Instr} {s : State} {d : Reg} {x : Word} (ok : s.precheck i = none) (h : scalarLogic s.w i = some (d, x)) :
    exec i s = .next (s.scalarResult d (x, 0#32)) := by
  cases i with
  | sand d a b => cases h; rw [wordOf_and]; exact exec_of_checked ok rfl
  | sor d a b => cases h; rw [wordOf_or]; exact exec_of_checked ok rfl
  | sxor d a b => cases h; rw [wordOf_xor]; exact exec_of_checked ok rfl
  | sandn d a b => cases h; rw [wordOf_andNot]; exact exec_of_checked ok rfl
  | sshl d a b => cases h; rw [ofNat_mul_two_pow]; exact exec_of_checked ok rfl
  | sshr d a b => cases h; rw [ofNat_div_two_pow]; exact exec_of_checked ok rfl
  | ssra d a b => cases h; rw [ofInt_div_two_pow]; exact exec_of_checked ok rfl
  | smin m d a b => cases h; rw [lesser_eq_minWord]; exact exec_of_checked ok rfl
  | smax m d a b => cases h; rw [greater_eq_maxWord]; exact exec_of_checked ok rfl
  | scmp c d a b => cases h; rw [holds_eq_condition, truth_eq_boolWord]; exact exec_of_checked ok rfl
  | sclz d a => cases h; rw [leading_eq_leadingZeros]; exact exec_of_checked ok rfl
  | spopc d a => cases h; rw [ones_eq_popCount]; exact exec_of_checked ok rfl
  | _ => cases h

/-- The immediate instructions (R145 to R147). -/
theorem exec_scalarImmediate {i : Instr} {s : State} {d : Reg} {x : Word} (ok : s.precheck i = none)
    (h : scalarImmediate s.w i = some (d, x)) : exec i s = .next (s.scalarResult d (x, 0#32)) := by
  cases i with
  | saddi d a imm => cases h; rw [ofInt_add_signed]; exact exec_of_checked ok rfl
  | sandi d a imm => cases h; rw [wordOf_andImmediate]; exact exec_of_checked ok rfl
  | sori d a imm => cases h; rw [wordOf_orImmediate]; exact exec_of_checked ok rfl
  | sxori d a imm => cases h; rw [wordOf_xorImmediate]; exact exec_of_checked ok rfl
  | smuli d a imm => cases h; rw [ofInt_mul_signed]; exact exec_of_checked ok rfl
  | sshli d a n => cases h; rw [ofNat_mul_two_pow]; exact exec_of_checked ok rfl
  | sshri d a n => cases h; rw [ofNat_div_two_pow]; exact exec_of_checked ok rfl
  | ssrai d a n => cases h; rw [ofInt_div_two_pow]; exact exec_of_checked ok rfl
  | scmpi d a c imm => cases h; rw [holds_eq_condition, truth_eq_boolWord]; exact exec_of_checked ok rfl
  | sldi d imm => cases h; exact exec_of_checked ok rfl
  | sldhi d imm => cases h; rw [ofNat_highImmediate]; exact exec_of_checked ok rfl
  | _ => cases h

/-! ### Arithmetic (R136 to R138) -/

/-- The row of `sdiv`, over the machine's division. -/
theorem scalarArithmetic_sdiv (w : Warp) (u : BitVec 1) (d a b : Reg) :
    scalarArithmetic w (.sdiv u d a b) =
      some ([(d, (divide (u == 1#1) (w.readS a) (w.readS b)).1), (d + 1#7, (divide (u == 1#1) (w.readS a) (w.readS b)).2)], 0#32) := by
  rw [scalarArithmetic]
  generalize w.readS a = x, w.readS b = y
  by_cases zero : y = 0#32
  · subst zero
    rw [divide_zero]
    rfl
  · obtain rfl | rfl := u.eq_zero_or_eq_one
    · rw [show (0#1 == 1#1) = false from rfl, divide_signed zero]
      simp only [zero, if_false]
      rfl
    · rw [show (1#1 == 1#1) = true from rfl, divide_unsigned zero]
      simp only [zero, if_false]
      rfl

theorem sdiv_result {s : State} {u : BitVec 1} {d a b : Reg} (ok : s.precheck (.sdiv u d a b) = none) :
    ∃ t, exec (.sdiv u d a b) s = .next t ∧
      ScalarResult s t
        [(d, (divide (u == 1#1) (s.w.readS a) (s.w.readS b)).1), (d + 1#7, (divide (u == 1#1) (s.w.readS a) (s.w.readS b)).2)] 0#32 := by
  refine ⟨_, exec_of_checked ok rfl, ?_⟩
  simpa only [Warp.setFlags_zero] using scalarResult_pair s d _ _ 0#32

/-- `sadd`, `ssub`, `smul` and `sdiv`. -/
theorem scalarArithmetic_result {i : Instr} {s : State} {r : List (Reg × Word) × Word} (ok : s.precheck i = none)
    (h : scalarArithmetic s.w i = some r) : ∃ t, exec i s = .next t ∧ ScalarResult s t r.1 r.2 := by
  cases i with
  | sadd u m d a b =>
    obtain rfl | rfl := u.eq_zero_or_eq_one <;> cases h <;> dsimp only
    · rw [inMode_add]
      exact ⟨_, exec_of_checked ok rfl, scalarResult_one s d _ _⟩
    · rw [pairOf_eq_readS64, pairOf_eq_readS64, inMode_add]
      exact ⟨_, exec_of_checked ok rfl, scalarResult_two s d _ _⟩
  | ssub u m d a b =>
    obtain rfl | rfl := u.eq_zero_or_eq_one <;> cases h <;> dsimp only
    · rw [inMode_sub]
      exact ⟨_, exec_of_checked ok rfl, scalarResult_one s d _ _⟩
    · rw [pairOf_eq_readS64, pairOf_eq_readS64, inMode_sub]
      exact ⟨_, exec_of_checked ok rfl, scalarResult_two s d _ _⟩
  | smul m d a b =>
    by_cases high : m = 3#2
    · subst high
      cases h
      exact ⟨_, exec_of_checked ok rfl, scalarResult_one s d _ _⟩
    · rw [scalarArithmetic, if_neg high, inMode_mul high] at h
      cases h
      exact ⟨_, exec_of_checked ok rfl, scalarResult_one s d _ _⟩
  | sdiv u d a b =>
    rw [scalarArithmetic_sdiv] at h
    cases h
    exact sdiv_result ok
  | _ => cases h

/-- Settles O1: each of the three tables gives what the instructions of its rows write, and writing scalars changes nothing else. -/
theorem scalarResults : Obligations.ScalarResults := by
  intro i s r h ok
  rw [scalarResult] at h
  split at h
  · cases h
    exact scalarArithmetic_result ok ‹_›
  · cases h
    exact ⟨_, exec_scalarLogic ok ‹_›, scalarResult_one s _ _ _⟩
  · cases h
    exact ⟨_, exec_scalarImmediate ok ‹_›, scalarResult_one s _ _ _⟩
  · cases h

end Sys2Proof.Machine
end

section
/-!
SUPPORT. Branches, `jmpr`, `nop` and `yield` (R103, R104, R176, R178, R189).
-/

namespace Sys2Proof.Machine

open Sys2Proof.Claims

/-! ### A fragment that moves and changes nothing else -/

/-- Moving on completes an instruction. -/
theorem completed_advance (s : State) : Completed s s.w.advance := ⟨s.w.advance_only, s.w.advance_advanced⟩

/-- A warp whose slot yields moves on as it would otherwise. -/
theorem completed_yielded (s : State) (y : Vector Bool 2) :
    ∃ v, Completed s v ∧ ({ s.w with yielded := y } : Warp).advance = { v with yielded := y } := by
  have only := Warp.advance_only { s.w with yielded := y }
  have moves : Advanced s.w ({ s.w with yielded := y } : Warp).advance :=
    advanced_of_same_levels rfl rfl rfl rfl rfl (Warp.advance_advanced { s.w with yielded := y })
  generalize ({ s.w with yielded := y } : Warp).advance = v at only moves ⊢
  exact ⟨{ v with yielded := s.w.yielded }, ⟨by rw [only], moves⟩, by rw [only]⟩

/-- A branch goes to its destination or moves on. -/
theorem exec_branch {i : Instr} {s : State} {b : Bool} {a : Addr} {body : State → State} (ok : s.precheck i = none)
    (arm : exec i s = .next (s.checked i body)) (branches : body s = s.branch b a) :
    (b = true → exec i s = .next (jumpedTo s a)) ∧ (b = false → ∃ v, Completed s v ∧ exec i s = .next { s with w := v }) := by
  have run : exec i s = .next (s.branch b a) := by rw [exec_of_checked ok arm, branches]
  refine ⟨fun taken => ?_, fun notTaken => ⟨_, completed_advance s, ?_⟩⟩
  · rw [run, taken]
    rfl
  · rw [run, notTaken]
    rfl

/-! ### Destinations and conditions -/

/-- The destination of R104, in integers, is the machine's. -/
theorem displaced_eq_target {n : Nat} (pc : Addr) (d : BitVec n) : displaced pc d = target pc d := by
  rw [displaced, BitVec.ofInt_add, BitVec.ofInt_mul, BitVec.ofInt_toInt]
  rfl

/-- Some active thread's predicate bit is set. -/
theorem yes_nonempty (w : Warp) (p : Pred) : (!(yes w p).isEmpty) = (w.readP p &&& w.frag.mask != 0#32) := by
  rw [Bool.eq_iff_iff, ← any_commonBit, List.any_eq_true, Bool.not_eq_true', List.isEmpty_eq_false_iff_exists_mem]
  constructor
  · rintro ⟨k, found⟩
    obtain ⟨inMask, set⟩ := List.mem_filter.mp found
    exact ⟨k.val, List.mem_range.mpr k.isLt, (Bool.and_eq_true ..).mpr ⟨set, (List.mem_filter.mp inMask).2⟩⟩
  · rintro ⟨i, below, common⟩
    obtain ⟨set, inMask⟩ := (Bool.and_eq_true ..).mp common
    exact ⟨⟨i, List.mem_range.mp below⟩, List.mem_filter.mpr ⟨List.mem_filter.mpr ⟨List.mem_finRange _, inMask⟩, set⟩⟩

/-- Every active thread's predicate bit is set. -/
theorem yes_all (w : Warp) (p : Pred) : ((yes w p).length == (active w).length) = (w.readP p &&& w.frag.mask == w.frag.mask) := by
  rw [Bool.eq_iff_iff, beq_iff_eq, beq_iff_eq, yes, List.length_filter_eq_length_iff]
  constructor
  · refine fun all => BitVec.eq_of_getLsbD_eq fun i hi => ?_
    rw [BitVec.getLsbD_and]
    cases inMask : w.frag.mask.getLsbD i with
    | false => exact Bool.and_false _
    | true => rw [Bool.and_true]; exact all ⟨i, hi⟩ (List.mem_filter.mpr ⟨List.mem_finRange _, inMask⟩)
  · intro same k found
    have bit := congrArg (BitVec.getLsbD · k.val) same
    have inMask : w.frag.mask.getLsbD k.val = true := (List.mem_filter.mp found).2
    simpa [inMask] using bit

/-! ### The instructions -/

/-- Settles O30: each is a branch of the machine under the statement's condition to the statement's destination, and `yield` moves on. -/
theorem branches : Obligations.Branches := by
  refine fun s => ⟨fun i b a h ok => ?_, fun ok => ?_⟩
  · cases i with
    | bra d => cases h; rw [displaced_eq_target]; exact exec_branch ok rfl rfl
    | brany p d => cases h; rw [yes_nonempty, displaced_eq_target]; exact exec_branch ok rfl rfl
    | brall p d => cases h; rw [yes_all, displaced_eq_target]; exact exec_branch ok rfl rfl
    | brz r d => cases h; rw [displaced_eq_target]; exact exec_branch ok rfl rfl
    | brnz r d => cases h; rw [displaced_eq_target]; exact exec_branch ok rfl rfl
    | jmpr r => cases h; rw [pairOf_eq_readS64]; exact exec_branch ok rfl rfl
    | nop => cases h; exact exec_branch ok rfl rfl
    | _ => cases h
  · obtain ⟨v, completed, moved⟩ := completed_yielded s (s.w.yielded.set s.w.cur true)
    exact ⟨v, completed, by rw [exec_of_checked ok rfl, State.finish_only, moved]⟩

end Sys2Proof.Machine
end

section
/-!
SUPPORT. The order of binary32 words by their bits, in which the statements are written, is the order of their values (R119, R160).
-/

namespace Sys2Proof.Machine

open Sys2Proof.Claims

/-! ### Magnitudes -/

/-- The magnitude of a binary32 code without its sign bit, in multiples of 2^-149; an infinity stands one step above the largest finite value. -/
def magnitudeF32 (c : Nat) : Nat := if c / 2 ^ 23 = 0 then c else (c % 2 ^ 23 + 2 ^ 23) * 2 ^ (c / 2 ^ 23 - 1)

/-- A larger code has the larger magnitude: the mantissa counts up to the next exponent. -/
theorem magnitudeF32_strictMono : StrictMono magnitudeF32 := by
  refine strictMono_nat_of_lt_succ fun c => ?_
  unfold magnitudeF32
  have scale : 0 < 2 ^ (c / 2 ^ 23 - 1) := Nat.two_pow_pos _
  by_cases carry : c % 2 ^ 23 + 1 < 2 ^ 23
  · have exponent : (c + 1) / 2 ^ 23 = c / 2 ^ 23 := by omega
    have mantissa : (c + 1) % 2 ^ 23 = c % 2 ^ 23 + 1 := by omega
    rw [exponent, mantissa]
    split
    · exact Nat.lt_succ_self c
    · exact Nat.mul_lt_mul_of_pos_right (by omega) scale
  · have exponent : (c + 1) / 2 ^ 23 = c / 2 ^ 23 + 1 := by omega
    have mantissa : (c + 1) % 2 ^ 23 = 0 := by omega
    rw [exponent, mantissa, if_neg (Nat.succ_ne_zero _), Nat.add_sub_cancel]
    split
    · next subnormal => rw [subnormal]; omega
    · next normal =>
      obtain ⟨k, same⟩ := Nat.exists_eq_succ_of_ne_zero normal
      have below : (c % 2 ^ 23 + 2 ^ 23) * 2 ^ k < (2 ^ 23 + 2 ^ 23) * 2 ^ k :=
        Nat.mul_lt_mul_of_pos_right (by omega) (Nat.two_pow_pos k)
      rw [same, Nat.succ_sub_one, pow_succ 2 k]
      generalize 2 ^ k = p at below ⊢
      omega

/-- The value of a word that is not NaN, in multiples of 2^-149. -/
def valueF32 (w : Word) : Int := if w.getLsbD 31 then -magnitudeF32 (w.toNat % 2 ^ 31) else magnitudeF32 (w.toNat % 2 ^ 31)

/-- The order by the bits is that of the values. -/
theorem place_lt_iff (x y : Word) : place x < place y ↔ valueF32 x < valueF32 y := by
  have less (a b : Nat) : magnitudeF32 a < magnitudeF32 b ↔ a < b := magnitudeF32_strictMono.lt_iff_lt
  have zero : magnitudeF32 0 = 0 := rfl
  have xPos := less 0 (x.toNat % 2 ^ 31)
  have yPos := less 0 (y.toNat % 2 ^ 31)
  have xy := less (x.toNat % 2 ^ 31) (y.toNat % 2 ^ 31)
  have yx := less (y.toNat % 2 ^ 31) (x.toNat % 2 ^ 31)
  unfold place valueF32
  dsimp only
  split <;> split <;> omega

/-! ### What a word decodes to -/

/-- A word is a NaN, an infinity of its sign, or a finite number of its sign and magnitude. -/
theorem numF32_cases (w : Word) :
    (isNaN w = true ∧ numF32 w = .nan (isSNaN w)) ∨
    (isNaN w = false ∧ w.toNat % 2 ^ 31 = 255 * 2 ^ 23 ∧ numF32 w = .inf (w.getLsbD 31)) ∨
    (isNaN w = false ∧ w.toNat % 2 ^ 31 < 255 * 2 ^ 23 ∧
      ∃ m e, numF32 w = .fin (w.getLsbD 31) m e ∧ -149 ≤ e ∧ m * 2 ^ (e - -149).toNat = magnitudeF32 (w.toNat % 2 ^ 31)) := by
  have decoded : numF32 w =
      if w.toNat / 2 ^ 23 % 2 ^ 8 = 255 then (if w.toNat % 2 ^ 23 = 0 then .inf (w.getLsbD 31) else .nan (!w.getLsbD 22))
      else if w.toNat / 2 ^ 23 % 2 ^ 8 = 0 then .fin (w.getLsbD 31) (w.toNat % 2 ^ 23) (-149)
      else .fin (w.getLsbD 31) (w.toNat % 2 ^ 23 + 2 ^ 23) ((w.toNat / 2 ^ 23 % 2 ^ 8 : Nat) - 150) := by
    have quiet : (w.toNat % 2 ^ 23).testBit 22 = w.getLsbD 22 := by rw [Nat.testBit_mod_two_pow]; rfl
    have exponent (e : Nat) : (e : Int) - (127 : Nat) - (23 : Nat) = e - 150 := by omega
    unfold numF32 FloatFormat.decode
    simp only [f32, Bool.true_and, Bool.false_and, beq_iff_eq, quiet, exponent]
    rfl
  have exponent : w.toNat % 2 ^ 31 / 2 ^ 23 = w.toNat / 2 ^ 23 % 2 ^ 8 := by omega
  have mantissa : w.toNat % 2 ^ 31 % 2 ^ 23 = w.toNat % 2 ^ 23 := by omega
  have joined : w.toNat % 2 ^ 31 = w.toNat / 2 ^ 23 % 2 ^ 8 * 2 ^ 23 + w.toNat % 2 ^ 23 := by omega
  have exponentBound : w.toNat / 2 ^ 23 % 2 ^ 8 < 2 ^ 8 := Nat.mod_lt _ (Nat.two_pow_pos 8)
  have mantissaBound : w.toNat % 2 ^ 23 < 2 ^ 23 := Nat.mod_lt _ (Nat.two_pow_pos 23)
  rw [decoded, isSNaN, isNaN, magnitudeF32, exponent, mantissa, joined]
  generalize w.toNat / 2 ^ 23 % 2 ^ 8 = e at exponentBound
  generalize w.toNat % 2 ^ 23 = m at mantissaBound
  by_cases top : e = 255
  · by_cases zero : m = 0
    · exact .inr (.inl ⟨by simp [zero], by omega, by rw [if_pos top, if_pos zero]⟩)
    · exact .inl ⟨by simp [top, zero], by simp [top, zero]⟩
  · refine .inr (.inr ⟨by simp [top], by omega, ?_⟩)
    rw [if_neg top]
    by_cases subnormal : e = 0
    · rw [if_pos subnormal, if_pos subnormal]
      exact ⟨_, _, rfl, le_refl _, by rw [sub_self, Int.toNat_zero, pow_zero]; omega⟩
    · rw [if_neg subnormal, if_neg subnormal]
      exact ⟨_, _, rfl, by omega, by congr 2; omega⟩

/-- A finite value in multiples of a smaller power of two. -/
theorem atExp_lower (neg : Bool) (m : Nat) {e q r : Int} (low : r ≤ q) (high : q ≤ e) :
    atExp neg m e r = atExp neg m e q * 2 ^ (q - r).toNat := by
  have split : (e - r).toNat = (e - q).toNat + (q - r).toNat := by omega
  unfold atExp
  rw [split, pow_add, ← mul_assoc]
  cases neg
  · simp only [Bool.false_eq_true, if_false]; push_cast; ring
  · simp only [if_true]; push_cast; ring

/-- The comparison of two finite values, in multiples of one power of two that divides both. -/
theorem ltNum_fin (na nb : Bool) (ma mb : Nat) {ea eb r : Int} (ha : r ≤ ea) (hb : r ≤ eb) :
    ltNum (.fin na ma ea) (.fin nb mb eb) = decide (atExp na ma ea r < atExp nb mb eb r) := by
  rw [atExp_lower na ma (le_min ha hb) (min_le_left ea eb), atExp_lower nb mb (le_min ha hb) (min_le_right ea eb)]
  exact decide_eq_decide.mpr (mul_lt_mul_iff_left₀ (by positivity)).symm

theorem atExp_eq_valueF32 {w : Word} {m : Nat} {e : Int} (h : m * 2 ^ (e - -149).toNat = magnitudeF32 (w.toNat % 2 ^ 31)) :
    atExp (w.getLsbD 31) m e (-149) = valueF32 w := by
  rw [atExp, valueF32, h]

/-- Two words that are not NaN compare as their bits do. -/
theorem ltNum_numF32 {x y : Word} (hx : isNaN x = false) (hy : isNaN y = false) :
    ltNum (numF32 x) (numF32 y) = decide (place x < place y) := by
  obtain ⟨nan, -⟩ | ⟨-, xTop, xNum⟩ | ⟨-, xBound, mx, ex, xNum, xExp, xValue⟩ := numF32_cases x
  · simp [hx] at nan
  · obtain ⟨nan, -⟩ | ⟨-, yTop, yNum⟩ | ⟨-, yBound, my, ey, yNum, -⟩ := numF32_cases y
    · simp [hy] at nan
    · rw [xNum, yNum, place, place, xTop, yTop]
      cases x.getLsbD 31 <;> cases y.getLsbD 31 <;> rfl
    · rw [xNum, yNum, place, place, xTop]
      cases x.getLsbD 31 <;> cases y.getLsbD 31 <;> simp [ltNum] <;> omega
  · obtain ⟨nan, -⟩ | ⟨-, yTop, yNum⟩ | ⟨-, yBound, my, ey, yNum, yExp, yValue⟩ := numF32_cases y
    · simp [hy] at nan
    · rw [xNum, yNum, place, place, yTop]
      cases x.getLsbD 31 <;> cases y.getLsbD 31 <;> simp [ltNum] <;> omega
    · rw [xNum, yNum, ltNum_fin _ _ _ _ xExp yExp, atExp_eq_valueF32 xValue, atExp_eq_valueF32 yValue]
      exact decide_eq_decide.mpr (place_lt_iff x y).symm

theorem numF32_isNan (w : Word) : (numF32 w).isNan = isNaN w := by
  obtain ⟨nan, num⟩ | ⟨nan, -, num⟩ | ⟨nan, -, m, e, num, -⟩ := numF32_cases w <;> rw [num, nan] <;> rfl

theorem numF32_isSignalling (w : Word) : (numF32 w).isSignalling = isSNaN w := by
  obtain ⟨nan, num⟩ | ⟨nan, -, num⟩ | ⟨nan, -, m, e, num, -⟩ := numF32_cases w <;> rw [num]
  · rfl
  · rw [isSNaN, nan]; rfl
  · rw [isSNaN, nan]; rfl

theorem numF32_sign {w : Word} (h : isNaN w = false) : (numF32 w).sign = w.getLsbD 31 := by
  obtain ⟨nan, num⟩ | ⟨nan, -, num⟩ | ⟨nan, -, m, e, num, -⟩ := numF32_cases w
  · simp [h] at nan
  · rw [num]; rfl
  · rw [num]; rfl

/-! ### The smaller and the larger (R160) -/

/-- Two negative words of one place are one word. -/
theorem eq_of_place_eq {x y : Word} (same : place x = place y) (xNeg : x.getLsbD 31 = true) (yNeg : y.getLsbD 31 = true) : x = y := by
  have xTop : x.toNat / 2 ^ 31 % 2 = 1 := by simpa [BitVec.getLsbD, Nat.testBit_eq_decide_div_mod_eq] using xNeg
  have yTop : y.toNat / 2 ^ 31 % 2 = 1 := by simpa [BitVec.getLsbD, Nat.testBit_eq_decide_div_mod_eq] using yNeg
  simp only [place, xNeg, yNeg, if_true] at same
  exact BitVec.eq_of_toNat_eq (by omega)

/-- The smaller or larger of R160, chosen by the bits, and its invalid flag are the machine's. -/
theorem minMaxF32_eq_floatPick (larger : Bool) (x y : Word) :
    minMaxF32 larger x y = (floatPick larger x y, if isSNaN x || isSNaN y then 1#32 else 0#32) := by
  unfold minMaxF32 floatPick
  simp only [numF32_isNan, numF32_isSignalling]
  refine Prod.ext ?_ rfl
  dsimp only
  cases hx : isNaN x
  · cases hy : isNaN y
    · have less := ltNum_numF32 hx hy
      have greater := ltNum_numF32 hy hx
      simp only [eqNum, numF32_isNan, hx, hy, less, greater, numF32_sign hx, numF32_sign hy, Bool.false_eq_true, if_false]
      by_cases bothNeg : place x = place y ∧ x.getLsbD 31 = true ∧ y.getLsbD 31 = true
      · obtain ⟨same, xNeg, yNeg⟩ := bothNeg
        rw [eq_of_place_eq same xNeg yNeg]
        simp
      · refine ite_congr ?_ (fun _ => rfl) fun _ => rfl
        simp only [Bool.or_eq_true, Bool.and_eq_true, Bool.not_eq_true', decide_eq_true_eq, decide_eq_false_iff_not, eq_iff_iff]
        grind
    · simp
  · rfl

end Sys2Proof.Machine
end

section
/-!
SUPPORT. What an atomic leaves in its location and its flags, in the rules' own arithmetic on naturals, is what the machine computes on 64-bit
words (R111, R205, R207).
-/

namespace Sys2Proof.Machine

open Sys2Proof.Claims

/-- The number of some bits, below a bound, of a number. -/
theorem foldl_bits {f : Nat → Bool} {n v : Nat} (h : ∀ i, v.testBit i = (decide (i < n) && f i)) :
    (List.range n).foldl (fun v i => if f i then v + 2 ^ i else v) 0 = v :=
  Nat.eq_of_testBit_eq fun i => by rw [testBit_foldl_range, h]

/-- The bits of two numbers below a bound, combined by an operation that leaves two zeros zero. -/
theorem foldl_bits_of_lt {f : Bool → Bool → Bool} {n a b v : Nat} (zeros : f false false = false) (ha : a < 2 ^ n) (hb : b < 2 ^ n)
    (h : ∀ i, v.testBit i = f (a.testBit i) (b.testBit i)) :
    (List.range n).foldl (fun v i => if f (a.testBit i) (b.testBit i) then v + 2 ^ i else v) 0 = v := by
  refine foldl_bits (f := fun i => f (a.testBit i) (b.testBit i)) fun i => ?_
  by_cases below : i < n
  · rw [h, decide_eq_true below, Bool.true_and]
  · have high : 2 ^ n ≤ 2 ^ i := Nat.pow_le_pow_right (by omega) (by omega)
    rw [h, decide_eq_false below, Bool.false_and, Nat.testBit_lt_two_pow (ha.trans_le high), Nat.testBit_lt_two_pow (hb.trans_le high), zeros]

/-- A number of n bits read as a signed one. -/
theorem toSigned_of_lt {n v : Nat} (h : v < 2 ^ n) : toSigned n v = if v < 2 ^ (n - 1) then (v : Int) else (v : Int) - 2 ^ n := by
  rw [toSigned, Nat.mod_eq_of_lt h, Nat.cast_pow]
  rfl

/-- What an atomic leaves and its flags, for a location of 4 bytes, or of 8 that does not hold a binary32 value. -/
theorem atomicResult_eq_atomicNew {size old x cmp : Nat} (c : BitVec 3) (un : Bool) {fl : Bool} (sizes : size = 4 ∨ size = 8 ∧ fl = false)
    (hold : old < 2 ^ (8 * size)) (hx : x < 2 ^ (8 * size)) (hcmp : cmp < 2 ^ (8 * size)) :
    (atomicResult c.toNat un fl size (BitVec.ofNat 64 old) (BitVec.ofNat 64 x) (BitVec.ofNat 64 cmp)).1.toNat =
        (atomicNew c un fl (8 * size) old x cmp).1 ∧
      (atomicResult c.toNat un fl size (BitVec.ofNat 64 old) (BitVec.ofNat 64 x) (BitVec.ofNat 64 cmp)).2 =
        (atomicNew c un fl (8 * size) old x cmp).2 := by
  have wide : 2 ^ (8 * size) ≤ 2 ^ 64 := Nat.pow_le_pow_right (by omega) (by omega)
  have toNat {v : Nat} (h : v < 2 ^ (8 * size)) : (BitVec.ofNat 64 v).toNat = v := by
    rw [BitVec.toNat_ofNat, Nat.mod_eq_of_lt (h.trans_le wide)]
  have pick (b : Bool) {u v : Nat} (hu : u < 2 ^ (8 * size)) (hv : v < 2 ^ (8 * size)) :
      (if b then BitVec.ofNat 64 u else BitVec.ofNat 64 v).toNat = if b then u else v := by
    rw [apply_ite BitVec.toNat, toNat hu, toNat hv]
  have word (v : Word) : (v.setWidth 64).toNat = v.toNat := by rw [BitVec.toNat_setWidth]; omega
  have low (v : Nat) : lo32 (BitVec.ofNat 64 v) = low32 v := BitVec.eq_of_toNat_eq (by simp [lo32, low32])
  have same : (BitVec.ofNat 64 old == BitVec.ofNat 64 cmp) = decide (old = cmp) := by
    rw [Bool.eq_iff_iff, beq_iff_eq, decide_eq_true_eq, ← BitVec.toNat_inj, toNat hold, toNat hcmp]
  have sum : (old + x) % 2 ^ (8 * size) < 2 ^ (8 * size) := Nat.mod_lt _ (Nat.two_pow_pos _)
  unfold atomicResult atomicNew
  simp only [toNat hold, toNat hx, low, same, toSigned_of_lt hold, toSigned_of_lt hx, minMaxF32_eq_floatPick]
  have code := c.isLt
  generalize c.toNat = k at code
  match k, code, fl with
  | 0, _, false => exact ⟨toNat sum, rfl⟩
  | 0, _, true => exact ⟨word _, rfl⟩
  | 1, _, false => exact ⟨pick _ hold hx, rfl⟩
  | 1, _, true => exact ⟨word _, rfl⟩
  | 2, _, false => exact ⟨pick _ hx hold, rfl⟩
  | 2, _, true => exact ⟨word _, rfl⟩
  | 3, _, _ =>
    have bits := foldl_bits_of_lt (f := fun a b => a && b) rfl hold hx fun i => Nat.testBit_and ..
    exact ⟨((BitVec.toNat_and ..).trans (by rw [toNat hold, toNat hx])).trans bits.symm, rfl⟩
  | 4, _, _ =>
    have bits := foldl_bits_of_lt (f := fun a b => a || b) rfl hold hx fun i => Nat.testBit_or ..
    exact ⟨((BitVec.toNat_or ..).trans (by rw [toNat hold, toNat hx])).trans bits.symm, rfl⟩
  | 5, _, _ =>
    have bits := foldl_bits_of_lt (f := fun a b => a != b) rfl hold hx fun i => Nat.testBit_xor ..
    exact ⟨((BitVec.toNat_xor ..).trans (by rw [toNat hold, toNat hx])).trans bits.symm, rfl⟩
  | 6, _, _ => exact ⟨toNat hx, rfl⟩
  | 7, _, _ => exact ⟨(pick _ hx hold).trans (by simp only [decide_eq_true_eq]), rfl⟩

/-- What an atomic leaves fits its location. -/
theorem atomicNew_lt {size old x cmp : Nat} (c : BitVec 3) (un : Bool) {fl : Bool} (sizes : size = 4 ∨ size = 8 ∧ fl = false)
    (hold : old < 2 ^ (8 * size)) (hx : x < 2 ^ (8 * size)) : (atomicNew c un fl (8 * size) old x cmp).1 < 2 ^ (8 * size) := by
  have word (v : Word) : v.toNat < 2 ^ (8 * size) := v.isLt.trans_le (Nat.pow_le_pow_right (by omega) (by omega))
  have choice {b : Prop} [Decidable b] {u v : Nat} (hu : u < 2 ^ (8 * size)) (hv : v < 2 ^ (8 * size)) :
      (if b then u else v) < 2 ^ (8 * size) := by
    split <;> assumption
  unfold atomicNew
  have code := c.isLt
  generalize c.toNat = k at code
  match k, code, fl with
  | 0, _, false => exact Nat.mod_lt _ (Nat.two_pow_pos _)
  | 0, _, true => exact word _
  | 1, _, false => exact choice hold hx
  | 1, _, true => exact word _
  | 2, _, false => exact choice hx hold
  | 2, _, true => exact word _
  | 3, _, _ =>
    exact (foldl_bits_of_lt (f := fun a b => a && b) rfl hold hx fun i => Nat.testBit_and ..).trans_lt (Nat.and_lt_two_pow _ hx)
  | 4, _, _ =>
    exact (foldl_bits_of_lt (f := fun a b => a || b) rfl hold hx fun i => Nat.testBit_or ..).trans_lt (Nat.or_lt_two_pow hold hx)
  | 5, _, _ =>
    exact (foldl_bits_of_lt (f := fun a b => a != b) rfl hold hx fun i => Nat.testBit_xor ..).trans_lt (Nat.xor_lt_two_pow hold hx)
  | 6, _, _ => exact hx
  | 7, _, _ => exact choice hx hold

/-- An atomic that writes nothing, a compare that failed, leaves its location as it was. -/
theorem atomicNew_of_not_writes {n old x cmp : Nat} {c : BitVec 3} (un fl : Bool)
    (h : atomicWrites c.toNat (BitVec.ofNat 64 old) (BitVec.ofNat 64 cmp) = false) : (atomicNew c un fl n old x cmp).1 = old := by
  rw [atomicWrites, Bool.or_eq_false_iff, bne_eq_false_iff_eq, beq_eq_false_iff_ne] at h
  obtain ⟨compare, failed⟩ := h
  have differ : old ≠ cmp := fun same => failed (by rw [same])
  rw [atomicNew, compare]
  exact if_neg differ

end Sys2Proof.Machine
end

section
/-!
SUPPORT. A team's scratchpad as its pages and bytes (R82 to R84, R198): what a change of a page leaves in the others, and what an access leaves in
each byte.
-/

namespace Sys2Proof.Machine

open Sys2Proof.Claims

/-! ### Numbers and their bytes (R4) -/

theorem leNat_append (l : List Byte) (b : Byte) : leNat (l ++ [b]) = leNat l + b.toNat * 256 ^ l.length := by
  induction l with
  | nil => simp [leNat]
  | cons a l ih => rw [List.cons_append, leNat, leNat, ih, List.length_cons, pow_succ]; ring

/-- The number that bytes hold, summed byte by byte. -/
theorem leNat_map_range (b : Nat → Byte) (n : Nat) :
    leNat ((List.range n).map b) = (List.range n).foldl (fun v j => v + (b j).toNat * 256 ^ j) 0 := by
  induction n with
  | zero => rfl
  | succ n ih => simp [List.range_succ, leNat_append, ih]

theorem leNat_lt (l : List Byte) : leNat l < 256 ^ l.length := by
  induction l with
  | nil => exact Nat.one_pos
  | cons b l ih =>
    have byte := b.isLt
    rw [leNat, List.length_cons, pow_succ]
    omega

/-- The bytes of a number, each by its place. -/
theorem leBytes_eq_map (n v : Nat) : leBytes n v = (List.range n).map fun j => BitVec.ofNat 8 (v / 256 ^ j) := by
  induction n generalizing v with
  | zero => rfl
  | succ n ih =>
    have next (j : Nat) : v / 256 / 256 ^ j = v / 256 ^ (j + 1) := by rw [Nat.div_div_eq_div_mul, pow_succ']
    simp [leBytes, List.range_succ_eq_map, ih, next, Function.comp_def]

@[simp] theorem length_leBytes (n v : Nat) : (leBytes n v).length = n := by simp [leBytes_eq_map]

theorem leNat_leBytes {n v : Nat} (h : v < 256 ^ n) : leNat (leBytes n v) = v := by
  induction n generalizing v with
  | zero => rw [pow_zero] at h; rw [leBytes, leNat]; omega
  | succ n ih =>
    rw [pow_succ] at h
    rw [leBytes, leNat, ih (by omega), BitVec.toNat_ofNat]
    omega

/-! ### Bytes written over a list -/

theorem getElem?_overwrite {l new : List Byte} {off : Nat} (inside : off + new.length ≤ l.length) (i : Nat) :
    (overwrite l off new)[i]? = if off ≤ i ∧ i < off + new.length then new[i - off]? else l[i]? := by
  have taken : (l.take off).length = off := List.length_take_of_le (by omega)
  rw [overwrite, List.append_assoc, List.getElem?_append, taken]
  by_cases before : i < off
  · rw [if_pos before, if_neg (by omega), List.getElem?_take_of_lt before]
  · rw [if_neg before, List.getElem?_append]
    by_cases within : i - off < new.length
    · rw [if_pos within, if_pos (by omega)]
    · rw [if_neg within, if_neg (by omega), List.getElem?_drop]
      congr 1
      omega

theorem length_overwrite {l new : List Byte} {off : Nat} (inside : off + new.length ≤ l.length) : (overwrite l off new).length = l.length := by
  simp only [overwrite, List.length_append, List.length_take, List.length_drop]
  omega

/-! ### Pages -/

/-- A page after a change of a page: the other pages of the map stand. -/
theorem Team.page_setPage (t : Team) (n m : Nat) {f : Page → Page} (keeps : ∀ g, (f g).n = g.n) :
    (t.setPage n f).page m = if m = n then f (t.page n) else t.page m := by
  unfold Team.setPage Team.page
  dsimp only
  induction t.pages with
  | nil =>
    by_cases same : m = n
    · simp [upsert, keeps, same]
    · simp [upsert, keeps, same, Ne.symm same]
  | cons p ps ih =>
    rw [upsert]
    by_cases here : p.n = n
    · by_cases same : m = n
      · simp [here, keeps, same]
      · simp [here, keeps, same, Ne.symm same]
    · by_cases found : p.n = m
      · have differ : m ≠ n := fun e => here (found.trans e)
        simp [found, differ]
      · simpa [here, found] using ih

@[simp] theorem Team.setPage_id (t : Team) (n : Nat) (f : Page → Page) : (t.setPage n f).id = t.id := rfl

/-- Making pages the most recently used changes nothing else of them. -/
theorem Team.page_spadUse (t : Team) (ps : List Nat) (now n : Nat) :
    (t.spadUse ps now).page n = { t.page n with used := if n ∈ ps then now else (t.page n).used } := by
  have fold (l : List Nat) : (l.foldl (fun t n => t.setPage n fun g => { g with used := now }) t).page n =
      { t.page n with used := if n ∈ l then now else (t.page n).used } := by
    induction l generalizing t with
    | nil => simp
    | cons m l ih =>
      rw [List.foldl_cons, ih, Team.page_setPage (f := fun g => { g with used := now }) _ _ _ fun _ => rfl]
      by_cases here : n = m
      · simp [here]
      · simp [here]
  rw [Team.spadUse, fold]
  simp only [List.mem_eraseDups]

@[simp] theorem Team.spadUse_id (t : Team) (ps : List Nat) (now : Nat) : (t.spadUse ps now).id = t.id := by
  refine foldl_keeps (fun u : Team => u.id = t.id) _ (fun u _ same => ?_) _ rfl
  exact same

/-- Clearing the marks of sectors leaves every page's bytes. -/
theorem Team.spadClear_bytes (t : Team) (secs : List Nat) (n : Nat) :
    ((secs.foldl (fun t sec => t.spadClear (sec / 32) (sec % 32)) t).page n).bytes = (t.page n).bytes := by
  refine foldl_keeps (fun u : Team => (u.page n).bytes = (t.page n).bytes) _ (fun u sec kept => ?_) _ rfl
  rw [Team.spadClear, Team.page_setPage (f := fun g => { g with marks := g.marks.filter fun m => m.1 != sec % 32 }) _ _ _ fun _ => rfl, ← kept]
  split
  · next same => rw [same]
  · rfl

@[simp] theorem Team.spadClear_id (t : Team) (secs : List Nat) : (secs.foldl (fun t sec => t.spadClear (sec / 32) (sec % 32)) t).id = t.id := by
  refine foldl_keeps (fun u : Team => u.id = t.id) _ (fun u _ same => ?_) _ rfl
  exact same

@[simp] theorem Team.spadWritePage_id (t : Team) (off : Nat) (b : List Byte) : (t.spadWritePage off b).id = t.id := rfl

/-- The bytes of a page after a write within one page. -/
theorem Team.bytes_spadWritePage (t : Team) (off : Nat) (b : List Byte) (n : Nat) :
    ((t.spadWritePage off b).page n).bytes =
      if n = off / 2048 then overwrite (t.page n).bytes (off % 2048) b else (t.page n).bytes := by
  rw [Team.spadWritePage, Team.page_setPage
    (f := fun g => { g with bytes := overwrite g.bytes (off % 2048) b, dirty := true, filled := true, logged := g.logged.or (some t.core) })
    _ _ _ fun _ => rfl]
  split
  · next same => rw [same]
  · rfl

/-! ### Writes within one page -/

/-- The bytes written at an offset lie in its page, which holds all its 2,048 bytes. -/
def FitsPage (t : Team) (off len : Nat) : Prop := off % 2048 + len ≤ 2048 ∧ (t.page (off / 2048)).bytes.length = 2048

/-- A write within its page keeps the pages' sizes, so that what fitted its page fits it still. -/
theorem FitsPage.spadWritePage {t : Team} {off other len : Nat} {b : List Byte} (fits : FitsPage t off b.length) (h : FitsPage t other len) :
    FitsPage (t.spadWritePage off b) other len := by
  refine ⟨h.1, ?_⟩
  rw [Team.bytes_spadWritePage]
  split
  · next same =>
    rw [length_overwrite, h.2]
    rw [h.2]
    exact fits.1
  · exact h.2

/-- Each byte of the scratchpad after a write within one page. -/
theorem spadByte_spadWritePage {t : Team} {off : Nat} {b : List Byte} (fits : FitsPage t off b.length) (o : Nat) :
    spadByte (t.spadWritePage off b) o = if off ≤ o ∧ o < off + b.length then b.getD (o - off) 0#8 else spadByte t o := by
  obtain ⟨inPage, full⟩ := fits
  rw [spadByte, spadByte, Team.bytes_spadWritePage]
  by_cases page : o / 2048 = off / 2048
  · rw [if_pos page, page, getElem?_overwrite (by omega)]
    by_cases covered : off ≤ o ∧ o < off + b.length
    · have place : o % 2048 - off % 2048 = o - off := by omega
      rw [if_pos covered, if_pos (by omega), place, List.getD_eq_getElem?_getD]
    · rw [if_neg covered, if_neg (by omega)]
  · rw [if_neg page, if_neg (by omega)]

/-- A number of the scratchpad is that of its bytes. -/
theorem spadNumber_eq (t : Team) (o n : Nat) : spadNumber t o n = leNat ((List.range n).map fun j => spadByte t (o + j)) :=
  (leNat_map_range _ n).symm

theorem spadNumber_lt (t : Team) (o n : Nat) : spadNumber t o n < 256 ^ n := by
  rw [spadNumber_eq]
  exact (leNat_lt _).trans_eq (by rw [List.length_map, List.length_range])

theorem leNat_spadRead (t : Team) (o n : Nat) : leNat (t.spadRead o n) = spadNumber t o n := by
  rw [spadNumber_eq, Team.spadRead, rangeFrom, List.map_map]
  rfl

/-- Each aligned word of the scratchpad after one is written. -/
theorem spadNumber_spadWritePage {t : Team} {off v : Nat} (fits : FitsPage t off 4) (small : v < 2 ^ 32) (aligned : off % 4 = 0)
    {o : Nat} (word : o % 4 = 0) : spadNumber (t.spadWritePage off (leBytes 4 v)) o 4 = if o = off then v else spadNumber t o 4 := by
  rw [← length_leBytes 4 v] at fits
  simp only [spadNumber_eq, spadByte_spadWritePage fits, length_leBytes]
  by_cases here : o = off
  · have bytes : (List.range 4).map (fun j => if off ≤ o + j ∧ o + j < off + 4 then (leBytes 4 v).getD (o + j - off) 0#8 else spadByte t (o + j)) =
        leBytes 4 v := by
      subst here
      refine List.ext_getElem (by simp) fun j before after => ?_
      have inside : j < 4 := by simpa using after
      simp [inside]
    rw [bytes, if_pos here]
    exact leNat_leBytes (small.trans_eq (by norm_num))
  · rw [if_neg here]
    congr 1
    refine List.map_congr_left fun j below => if_neg ?_
    have inWord := List.mem_range.mp below
    omega

/-! ### The writes of several lanes (R198) -/

/-- Each byte of the scratchpad after lanes have written in order: what the last lane that covers it stored. -/
theorem spadByte_foldl_spadWritePage {f : Form} {b : Fin 32 → List Byte} (ks : List (Fin 32)) {t : Team}
    (fits : ∀ k ∈ ks, FitsPage t (f.o k) f.size) (sizes : ∀ k, (b k).length = f.size) (o : Nat) :
    spadByte (ks.foldl (fun t k => t.spadWritePage (f.o k) (b k)) t) o =
      match (ks.filter fun k => decide (f.o k ≤ o) && decide (o < f.o k + f.size)).getLast? with
      | some k => (b k).getD (o - f.o k) 0#8
      | none => spadByte t o := by
  induction ks generalizing t with
  | nil => rfl
  | cons k ks ih =>
    have first : FitsPage t (f.o k) (b k).length := by rw [sizes]; exact fits k List.mem_cons_self
    rw [List.foldl_cons, ih fun m later => first.spadWritePage (fits m (List.mem_cons_of_mem k later)), spadByte_spadWritePage first, sizes,
      List.filter_cons]
    by_cases covers : f.o k ≤ o ∧ o < f.o k + f.size
    · rw [if_pos covers, if_pos (by simpa using covers), List.getLast?_cons]
      cases (ks.filter fun k => decide (f.o k ≤ o) && decide (o < f.o k + f.size)).getLast? <;> rfl
    · rw [if_neg covers, if_neg (by simpa using covers)]

theorem foldl_spadWritePage_id {α : Type} (l : List α) (o : α → Nat) (b : α → List Byte) (t : Team) :
    (l.foldl (fun t k => t.spadWritePage (o k) (b k)) t).id = t.id := by
  refine foldl_keeps (fun u : Team => u.id = t.id) _ (fun u _ same => ?_) _ rfl
  exact same

end Sys2Proof.Machine
end

section
/-!
SUPPORT. Scratchpad loads, stores and atomics on resident pages (R82, R194, R198, R201, R205, R207).
-/

namespace Sys2Proof.Machine

open Sys2Proof.Claims

/-! ### Lanes and their offsets -/

/-- The active lanes with their offsets, as the machine lists them. -/
def laneOffsets (w : Warp) (f : Form) : List LaneAddr := (active w).map fun k => (k.val, f.o k)

theorem mem_active {w : Warp} {k : Fin 32} : k ∈ active w ↔ on w k = true := by simp [active]

theorem sizeOf_eq_bytesOf (z : BitVec 2) : sizeOf z = bytesOf z := by revert z; decide

/-- The sizes of scratchpad accesses: powers of two that divide a sector. -/
theorem bytesOf_cases (z : BitVec 2) : bytesOf z = 4 ∨ bytesOf z = 8 ∨ bytesOf z = 16 := by revert z; decide

/-- A lane of a vector field. -/
theorem vnat_eq_laneN (w : Warp) (n : Nat) (k : Fin 32) : w.vnat n k.val = (laneN w n k).toNat := by
  have lane : Fin.ofNat 32 k.val = k := Fin.ext (Nat.mod_eq_of_lt k.isLt)
  simp only [Warp.vnat, lane]
  rfl

theorem memOffset_eq_offsetOf (w : Warp) (k : BitVec 1) (b : Reg) (size : Nat) : w.memOffset k b size = offsetOf w k b size := by
  obtain rfl | rfl := k.eq_zero_or_eq_one <;> rfl

theorem offsetAddrs_eq_laneOffsets (s : State) (size : Nat) (k : BitVec 1) (d a b : Reg) :
    s.offsetAddrs a (s.w.memOffset k b size) = laneOffsets s.w (offsetForm s.w size k d a b) := by
  rw [State.offsetAddrs, State.lanes, List.map_map, memOffset_eq_offsetOf]
  exact List.map_congr_left fun t _ => by simp only [Function.comp_def, vnat_eq_laneN, offsetForm]

/-! ### The checks and the counters (R194, R196) -/

theorem firstBad_none {checks : List (Code × (LaneAddr → Bool))} {lanes : List LaneAddr} (h : ∀ c ∈ checks, ∀ l ∈ lanes, c.2 l = false) :
    firstBad checks lanes = none := by
  induction checks with
  | nil => rfl
  | cons c checks ih =>
    have passes : lanes.any c.2 = false := List.any_eq_false.mpr fun l found => by simp [h c List.mem_cons_self l found]
    rw [firstBad, if_neg (by simp [passes])]
    exact ih fun d later => h d (List.mem_cons_of_mem c later)

theorem not_leased {s : State} {i : Instr} (h : Unleased s i) : s.leased i = false := by
  refine List.any_eq_false.mpr fun p named => ?_
  rw [Bool.not_eq_true]
  refine List.any_eq_false.mpr fun l leased => ?_
  have outside := h l leased p named
  simp only [Bool.and_eq_true, decide_eq_true_eq]
  omega

theorem countersFull_none {s : State} {load store : Bool} (loads : load = true → LoadRoom s) (stores : store = true → s.outStores s.w < 63)
    (requests : s.requests s.w.core < 2048) : s.countersFull load store = none := by
  have loadsFree : (load && decide (63 ≤ s.w.outLoads)) = false := by
    cases load
    · rfl
    · have room := loads rfl
      rw [LoadRoom, ← List.countP_eq_length_filter] at room
      exact decide_eq_false room.not_ge
  have storesFree : (store && decide (63 ≤ s.outStores s.w)) = false := by
    cases store
    · rfl
    · simpa using stores rfl
  rw [State.countersFull, loadsFree, storesFree]
  simp [requests]

/-! ### Pages, sectors and marks of aligned accesses -/

theorem pagesOf_aligned {o size : Nat} (sizes : size = 4 ∨ size = 8 ∨ size = 16) (aligned : o % size = 0) : pagesOf o size = [o / 2048] := by
  have single : (o + size - 1) / 2048 + 1 - o / 2048 = 1 := by obtain rfl | rfl | rfl := sizes <;> omega
  rw [pagesOf, single]
  rfl

theorem spadSectors_aligned {o size : Nat} (sizes : size = 4 ∨ size = 8 ∨ size = 16) (aligned : o % size = 0) :
    spadSectors o size = [(o / 64 / 32, o / 64 % 32)] := by
  have single : (o + size - 1) / 64 + 1 - o / 64 = 1 := by obtain rfl | rfl | rfl := sizes <;> omega
  rw [spadSectors, single]
  rfl

/-- Distinct elements are as many as their distinct images. -/
theorem length_eraseDups_map {α β : Type} [BEq α] [LawfulBEq α] [BEq β] [LawfulBEq β] {g : α → β} (inj : Function.Injective g) (l : List α) :
    (l.map g).eraseDups.length = l.eraseDups.length := by
  match l with
  | [] => rfl
  | a :: rest =>
    have others : (rest.map g).filter (fun b => !b == g a) = (rest.filter fun b => !b == a).map g := by
      rw [List.filter_map]
      congr 2
      funext b
      rw [Function.comp_apply, Bool.eq_iff_iff]
      simp [inj.eq_iff]
    have shorter := List.length_filter_le (fun b => !b == a) rest
    rw [List.map_cons, List.eraseDups_cons, List.eraseDups_cons, others, List.length_cons, List.length_cons, length_eraseDups_map inj]
termination_by l.length

/-- A page and a sector within it name one sector. -/
theorem sectorPlace_injective : Function.Injective fun n : Nat => (n / 32, n % 32) := by
  intro a b same
  obtain ⟨page, sector⟩ := Prod.mk.inj same
  omega

theorem spadReqs_eq_spadCount {w : Warp} {f : Form} (sizes : f.size = 4 ∨ f.size = 8 ∨ f.size = 16)
    (aligned : ∀ k, on w k = true → f.o k % f.size = 0) : spadReqs f.size (laneOffsets w f) = spadCount w f := by
  have sectors : (laneOffsets w f).flatMap (fun l => spadSectors l.2 f.size) =
      ((active w).map fun k => f.o k / 64).map fun n => (n / 32, n % 32) := by
    rw [laneOffsets, List.flatMap_map, List.map_map, ← List.flatMap_singleton' ((active w).map _), List.flatMap_map]
    exact List.flatMap_congr fun k found => spadSectors_aligned sizes (aligned k (mem_active.mp found))
  rw [spadReqs, sectors, length_eraseDups_map sectorPlace_injective, spadCount]

/-- No page of the map carries a mark. -/
def Unmarked (t : Team) : Prop := ∀ n, (t.page n).marks = []

theorem unmarked_of_pages {t : Team} (h : ∀ p ∈ t.pages, p.marks = []) : Unmarked t := by
  intro n
  rw [Team.page]
  cases found : t.pages.find? fun p => p.n == n with
  | none => rfl
  | some p => exact h p (List.mem_of_find?_eq_some found)

theorem Unmarked.spadUse {t : Team} (h : Unmarked t) (ps : List Nat) (now : Nat) : Unmarked (t.spadUse ps now) := fun n => by
  rw [Team.page_spadUse]
  exact h n

/-- On unmarked pages no lane meets a code. -/
theorem Unmarked.spadBad {t : Team} (h : Unmarked t) (size : Nat) (lanes : List LaneAddr) : t.spadBad size lanes = [] := by
  have clean (o : Nat) : t.spadCode o size = 0 := by
    rw [Team.spadCode, List.findSome?_eq_none_iff.mpr fun p _ => by rw [h p.1]; rfl]
    rfl
  exact List.filterMap_eq_nil_iff.mpr fun l _ => by rw [clean]; rfl

/-- An access makes pages the most recently used and leaves every byte. -/
theorem spadByte_spadUse (t : Team) (ps : List Nat) (now o : Nat) : spadByte (t.spadUse ps now) o = spadByte t o := by
  rw [spadByte, spadByte, Team.page_spadUse]

theorem spadNumber_spadUse (t : Team) (ps : List Nat) (now o n : Nat) : spadNumber (t.spadUse ps now) o n = spadNumber t o n := by
  simp only [spadNumber_eq, spadByte_spadUse]

/-- The accesses of a ready instruction fit their pages. -/
theorem fitsPage_of_ready {s : State} {t : Team} {f : Form} (ready : SpadReady s t f) (sizes : f.size = 4 ∨ f.size = 8 ∨ f.size = 16)
    (ps : List Nat) (now : Nat) {k : Fin 32} (active : on s.w k = true) : FitsPage (t.spadUse ps now) (f.o k) f.size := by
  obtain ⟨-, -, -, lanes⟩ := ready
  obtain ⟨aligned, -, -, full⟩ := lanes k active
  refine ⟨?_, by rw [Team.page_spadUse]; exact full⟩
  obtain size | size | size := sizes <;> rw [size] at aligned ⊢ <;> omega

/-- The state in which a scratchpad access is performed: it has taken a number for the use of its pages, none of which it waits for. -/
def State.spadStarted (s : State) : State := { s with nextId := s.nextId + 1 }.setReplay []

@[simp] theorem State.spadStarted_pc (s : State) : s.spadStarted.pc = s.w.frag.pc := rfl
@[simp] theorem State.spadStarted_clock (s : State) : s.spadStarted.clock = s.clock := rfl
@[simp] theorem State.spadStarted_w (s : State) : s.spadStarted.w = { s.w with replay := s.w.replay.set s.w.cur [] } := rfl

/-- A ready scratchpad access is performed on the team, whose pages it uses. -/
theorem spadAccess_of_ready {s : State} {t : Team} {f : Form} {i : Instr} {load store : Bool} (write : Bool) (go : State → Team → State)
    (ready : SpadReady s t f) (sizes : f.size = 4 ∨ f.size = 8 ∨ f.size = 16) (unleased : Unleased s i)
    (counters : s.countersFull load store = none) :
    s.spadAccess i f.size write load store (laneOffsets s.w f) go =
      go s.spadStarted (t.spadUse (pagesTouched s.w f) s.nextId) := by
  obtain ⟨team, -, untracked, lanes⟩ := ready
  have passes : s.spadCheck i f.size (laneOffsets s.w f) = none := by
    refine firstBad_none fun c check l found => ?_
    obtain ⟨k, inMask, rfl⟩ := List.mem_map.mp found
    obtain ⟨aligned, bound, -⟩ := lanes k (mem_active.mp inMask)
    simp only [team, Option.map_some, Option.getD_some, List.mem_cons, List.not_mem_nil, or_false] at check
    obtain rfl | rfl | rfl := check
    · exact not_leased unleased
    · simp [aligned]
    · simp [bound]
  have pages : (laneOffsets s.w f).flatMap (fun l => pagesOf l.2 f.size) = pagesTouched s.w f := by
    rw [laneOffsets, List.flatMap_map, pagesTouched, ← List.flatMap_singleton' ((active s.w).map _), List.flatMap_map]
    exact List.flatMap_congr fun k found => pagesOf_aligned sizes (lanes k (mem_active.mp found)).1
  have resident : t.missing (pagesTouched s.w f) = [] := by
    refine List.filter_eq_nil_iff.mpr fun n found => ?_
    obtain ⟨k, inMask, rfl⟩ := List.mem_map.mp (List.mem_eraseDups.mp found)
    obtain ⟨-, -, here, -⟩ := lanes k (mem_active.mp inMask)
    simp [here]
  have free : s.tracked f.size (laneOffsets s.w f) = false := untracked
  rw [State.spadAccess, passes, counters, team]
  simp only [pages, resident, free]
  rfl

/-! ### What the issue leaves -/

theorem setTeam_eq_withTeam (s : State) (t : Team) : (s.putTeam t).teams = withTeam s t := by
  rw [State.putTeam, State.setTeam, mapWhere, withTeam]
  simp only [beq_iff_eq]

/-- A scratchpad load or atomic enters the outstanding loads when it has been performed. -/
theorem issueLoad_spad (s : State) (t : Team) (x : Load) :
    ∃ v, (s.spadStarted.putTeam t).issueLoad x =
        { s with nextId := s.nextId + 2, w := v, teams := withTeam s t } ∧ Advanced s.w v ∧
      v = { s.w with
        slots := v.slots, loops := v.loops, replay := s.w.replay.set s.w.cur [], loads := s.w.loads ++ [{ x with id := s.nextId + 1 }] } := by
  refine ⟨({ s.w with
    replay := s.w.replay.set s.w.cur [], loads := s.w.loads ++ [{ x with id := s.nextId + 1 }] } : Warp).advance, ?_,
    advanced_of_same_levels rfl rfl rfl rfl rfl (Warp.advance_advanced _), Warp.advance_only _⟩
  rw [← setTeam_eq_withTeam]
  rfl

/-- A scratchpad store enters the core's pending stores, with no bytes left to store. -/
theorem issueStore_spad (s : State) (t : Team) (reqs : Nat) :
    ∃ v, (s.spadStarted.putTeam t).issueStore [] false reqs =
        { s with
          nextId := s.nextId + 2, w := v, teams := withTeam s t
          stores := s.stores ++ [⟨s.nextId + 1, s.w.id, s.w.core, s.w.frag.pc, [], false, false, false, reqs, [], s.clock⟩] } ∧
      Advanced s.w v ∧ v = { s.w with slots := v.slots, loops := v.loops, replay := s.w.replay.set s.w.cur [] } := by
  refine ⟨({ s.w with replay := s.w.replay.set s.w.cur [] } : Warp).advance, ?_,
    advanced_of_same_levels rfl rfl rfl rfl rfl (Warp.advance_advanced _), Warp.advance_only _⟩
  rw [← setTeam_eq_withTeam, State.issueStore]
  simp only [Bool.or_false]
  rfl

end Sys2Proof.Machine
end

section
/-!
SUPPORT. The scratchpad instructions (R201, R205, R207), and the statement about them.
-/

namespace Sys2Proof.Machine

open Sys2Proof.Claims

theorem aligned_of_ready {s : State} {t : Team} {f : Form} (ready : SpadReady s t f) {k : Fin 32} (inMask : on s.w k = true) :
    f.o k % f.size = 0 := by
  obtain ⟨-, -, -, lanes⟩ := ready
  exact (lanes k inMask).1

theorem unmarked_of_ready {s : State} {t : Team} {f : Form} (ready : SpadReady s t f) : Unmarked t := by
  obtain ⟨-, clean, -⟩ := ready
  exact unmarked_of_pages clean

/-! ### Loads -/

/-- What a load finds in each active lane. -/
def spadData (w : Warp) (t : Team) (f : Form) : List (Nat × BitVec 128) :=
  (active w).map fun l => (l.val, BitVec.ofNat 128 (spadNumber t (f.o l) f.size))

/-- A load on ready pages enters the outstanding loads with the bytes of its lanes. -/
theorem spadLoad_of_ready {s : State} {t : Team} {i : Instr} {z : BitVec 2} {k : BitVec 1} {d a b : Reg} {f : Form}
    (form : offsetForm s.w (bytesOf z) k d a b = f) (ready : SpadReady s t f) (unleased : Unleased s i)
    (counters : s.countersFull true false = none) :
    s.spadLoad i z k d a b = (s.spadStarted.putTeam (t.spadUse (pagesTouched s.w f) s.nextId)).issueLoad
      ⟨0, s.w.frag.pc, f.size, s.w.wbase + d.toNat, [], .cached, some (spadData s.w t f), 0#32, spadCount s.w f, false, none, s.clock, []⟩ := by
  have size : f.size = bytesOf z := form ▸ rfl
  have sizes := size ▸ bytesOf_cases z
  have unmarked := (unmarked_of_ready ready).spadUse (pagesTouched s.w f) s.nextId
  rw [State.spadLoad, sizeOf_eq_bytesOf, offsetAddrs_eq_laneOffsets s (bytesOf z) k d a b, form, ← size,
    spadAccess_of_ready false _ ready sizes unleased counters]
  dsimp only
  rw [unmarked.spadBad, if_pos List.isEmpty_nil, spadReqs_eq_spadCount sizes fun _ => aligned_of_ready ready]
  simp only [leNat_spadRead, spadNumber_spadUse, laneOffsets, List.map_map]
  rfl

/-! ### Stores -/

/-- A register of a group, read off the number that the group holds. -/
theorem register_of_group (x : Nat → Word) (m : Nat) {i : Nat} (inside : i < m) :
    (List.range m).foldl (fun v i => v + (x i).toNat * 2 ^ (32 * i)) 0 / 2 ^ (32 * i) % 2 ^ 32 = (x i).toNat := by
  have bound (m : Nat) : (List.range m).foldl (fun v i => v + (x i).toNat * 2 ^ (32 * i)) 0 < 2 ^ (32 * m) := by
    induction m with
    | zero => exact Nat.one_pos
    | succ m ih =>
      have digit : (x m).toNat + 1 ≤ 2 ^ 32 := (x m).isLt
      have top := Nat.mul_le_mul_right (2 ^ (32 * m)) digit
      rw [List.range_succ, List.foldl_append, List.foldl_cons, List.foldl_nil, Nat.mul_succ, Nat.add_comm (32 * m), pow_add]
      rw [Nat.succ_mul] at top
      omega
  induction m with
  | zero => omega
  | succ m ih =>
    rw [List.range_succ, List.foldl_append, List.foldl_cons, List.foldl_nil]
    obtain lower | rfl := Nat.lt_succ_iff_lt_or_eq.mp inside
    · obtain ⟨e, rfl⟩ := Nat.exists_eq_add_of_lt lower
      have above : (x (i + e + 1)).toNat * 2 ^ (32 * (i + e + 1)) = 2 ^ (32 * i) * (2 ^ 32 * ((x (i + e + 1)).toNat * 2 ^ (32 * e))) := by ring
      rw [above, Nat.add_mul_div_left _ _ (Nat.two_pow_pos _), Nat.add_mul_mod_self_left]
      exact ih lower
    · rw [Nat.add_mul_div_right _ _ (Nat.two_pow_pos _), Nat.div_eq_of_lt (bound i), Nat.zero_add]
      exact Nat.mod_eq_of_lt (x i).isLt

/-- The bytes that a lane stores, from its data registers. -/
theorem storeBytes_eq_storedBytes (w : Warp) (f : Form) (k : Fin 32) : w.storeBytes f.data f.size k.val = storedBytes w f k := by
  rw [Warp.storeBytes, leBytes_eq_map, storedBytes]
  refine List.map_congr_left fun j below => ?_
  simp only [vnat_eq_laneN]
  have inside : j / 4 < dataRegs f.size := by
    have inData := List.mem_range.mp below
    rw [dataRegs]
    omega
  have register := register_of_group (fun i => laneN w (f.data.toNat + i) k) (dataRegs f.size) inside
  have place : 256 ^ j = 2 ^ (32 * (j / 4)) * 2 ^ (8 * (j % 4)) := by
    rw [← pow_add, show 256 = 2 ^ 8 from rfl, ← pow_mul]
    congr 1
    omega
  rw [storedByte, place, ← Nat.div_div_eq_div_mul]
  generalize (List.range (dataRegs f.size)).foldl _ 0 / 2 ^ (32 * (j / 4)) = q at register ⊢
  have within : j % 4 < 4 := Nat.mod_lt _ (by omega)
  generalize j % 4 = r at within ⊢
  refine BitVec.eq_of_toNat_eq ?_
  rw [BitVec.toNat_ofNat, BitVec.toNat_ofNat, ← register]
  interval_cases r <;> omega

/-- A store of the active lanes leaves in each byte what the last lane stored there. -/
theorem spadByte_spadStore {t : Team} {w : Warp} {f : Form} {b : Fin 32 → List Byte} (fits : ∀ k, on w k = true → FitsPage t (f.o k) f.size)
    (sizes : ∀ k, (b k).length = f.size) (o : Nat) :
    spadByte (t.spadStore ((active w).map fun k => (f.o k, b k))) o =
      match lastLane w f o with
      | some k => (b k).getD (o - f.o k) 0#8
      | none => spadByte t o := by
  have cleared (secs : List Nat) (o : Nat) : spadByte (secs.foldl (fun t sec => t.spadClear (sec / 32) (sec % 32)) t) o = spadByte t o := by
    rw [spadByte, spadByte, Team.spadClear_bytes]
  have fitsCleared (secs : List Nat) (k : Fin 32) (found : k ∈ active w) :
      FitsPage (secs.foldl (fun t sec => t.spadClear (sec / 32) (sec % 32)) t) (f.o k) f.size := by
    obtain ⟨inPage, full⟩ := fits k (mem_active.mp found)
    exact ⟨inPage, by rw [Team.spadClear_bytes, full]⟩
  rw [Team.spadStore, List.foldl_map, spadByte_foldl_spadWritePage (active w) (fitsCleared _) sizes, cleared]
  rfl

theorem spadStore_id (t : Team) (writes : List (Nat × List Byte)) : (t.spadStore writes).id = t.id := by
  rw [Team.spadStore, foldl_spadWritePage_id, Team.spadClear_id]

theorem lastLane_covers {w : Warp} {f : Form} {o : Nat} {l : Fin 32} (h : lastLane w f o = some l) : o - f.o l < f.size := by
  have covers := (List.mem_filter.mp (List.mem_of_getLast? h)).2
  simp only [Bool.and_eq_true, decide_eq_true_eq] at covers
  omega

/-- A store on ready pages is performed when it issues. -/
theorem spadStore_of_ready {s : State} {t : Team} {i : Instr} {z : BitVec 2} {k : BitVec 1} {d a b : Reg} {f : Form}
    (form : offsetForm s.w (bytesOf z) k d a b = f) (ready : SpadReady s t f) (unleased : Unleased s i)
    (counters : s.countersFull false true = none) :
    ∃ t', s.spadStore i z k d a b = (s.spadStarted.putTeam t').issueStore [] false (spadCount s.w f) ∧ t'.id = t.id ∧
      ∀ o, spadByte t' o = match lastLane s.w f o with | some l => storedByte s.w d l (o - f.o l) | none => spadByte t o := by
  have size : f.size = bytesOf z := form ▸ rfl
  have data : f.data = d := form ▸ rfl
  have sizes := size ▸ bytesOf_cases z
  have unmarked := (unmarked_of_ready ready).spadUse (pagesTouched s.w f) s.nextId
  refine ⟨(t.spadUse (pagesTouched s.w f) s.nextId).spadStore ((active s.w).map fun l => (f.o l, storedBytes s.w f l)), ?_, ?_, fun o => ?_⟩
  · have bytes (l : Fin 32) : (s.spadStarted.w).storeBytes d f.size l.val = storedBytes s.w f l := data ▸ storeBytes_eq_storedBytes s.w f l
    rw [State.spadStore, sizeOf_eq_bytesOf, offsetAddrs_eq_laneOffsets s (bytesOf z) k d a b, form, ← size,
      spadAccess_of_ready true _ ready sizes unleased counters]
    dsimp only
    rw [unmarked.spadBad, List.filter_nil, if_pos List.isEmpty_nil, spadReqs_eq_spadCount sizes fun _ => aligned_of_ready ready]
    simp only [List.any_nil, Bool.not_false, List.filter_true, laneOffsets, List.map_map, Function.comp_def, bytes]
  · rw [spadStore_id, Team.spadUse_id]
  · rw [spadByte_spadStore (fun l => fitsPage_of_ready ready sizes _ _) (fun l => by rw [storedBytes, List.length_map, List.length_range])]
    cases last : lastLane s.w f o with
    | none => exact spadByte_spadUse t _ _ o
    | some l => simp [storedBytes, lastLane_covers last, data]

/-! ### Atomics -/

/-- One lane of a scratchpad atomic: the team, the data and the flags after it. -/
def spadAtomicLane (w : Warp) (c : Nat) (un fl : Bool) (n d : Nat) (acc : Team × List (Nat × BitVec 128) × Word) (l : LaneAddr) :
    Team × List (Nat × BitVec 128) × Word :=
  let old := BitVec.ofNat 64 (leNat (acc.1.spadRead l.2 4))
  let cmp := w.lane64 false d l.1
  let res := atomicResult c un fl 4 old (w.lane64 false n l.1) cmp
  (if atomicWrites c old cmp then acc.1.spadWritePage l.2 (leBytes 4 res.1.toNat) else acc.1,
    acc.2.1 ++ [(l.1, old.setWidth 128)], acc.2.2 ||| res.2)

/-- What a lane's atomic leaves where it found a number, and its flags. -/
def laneNew (w : Warp) (c : BitVec 3) (un fl : Bool) (n d : Nat) (k : Fin 32) (old : Nat) : Nat × Word :=
  atomicNew c un fl 32 old (laneN w n k).toNat (laneN w d k).toNat

/-- A lane finds the word as the ones before it left it, and changes no other aligned word. -/
theorem spadAtomicLane_eq (w : Warp) (c : BitVec 3) (un fl : Bool) (n d : Nat) {t : Team} (data : List (Nat × BitVec 128)) (flags : Word)
    (k : Fin 32) {o : Nat} (fits : FitsPage t o 4) (aligned : o % 4 = 0) :
    ∃ t', spadAtomicLane w c.toNat un fl n d (t, data, flags) (k.val, o) =
        (t', data ++ [(k.val, BitVec.ofNat 128 (spadNumber t o 4))], flags ||| (laneNew w c un fl n d k (spadNumber t o 4)).2) ∧
      t'.id = t.id ∧ (∀ other len, FitsPage t other len → FitsPage t' other len) ∧
      ∀ word, word % 4 = 0 → spadNumber t' word 4 = if word = o then (laneNew w c un fl n d k (spadNumber t o 4)).1 else spadNumber t word 4 := by
  have bound : spadNumber t o 4 < 2 ^ (8 * 4) := spadNumber_lt t o 4
  have operand (n : Nat) : (laneN w n k).toNat < 2 ^ (8 * 4) := (laneN w n k).isLt
  have lane (n : Nat) : w.lane64 false n k.val = BitVec.ofNat 64 (laneN w n k).toNat := by rw [← vnat_eq_laneN]; rfl
  obtain ⟨value, flag⟩ := atomicResult_eq_atomicNew (fl := fl) c un (.inl rfl) bound (operand n) (operand d)
  have extended : (BitVec.ofNat 64 (spadNumber t o 4)).setWidth 128 = BitVec.ofNat 128 (spadNumber t o 4) :=
    BitVec.eq_of_toNat_eq (by rw [BitVec.toNat_setWidth, BitVec.toNat_ofNat, BitVec.toNat_ofNat]; omega)
  rw [spadAtomicLane]
  simp only [leNat_spadRead, lane, extended, flag, value]
  have full : FitsPage t o (leBytes 4 (laneNew w c un fl n d k (spadNumber t o 4)).1).length := by rw [length_leBytes]; exact fits
  have small := atomicNew_lt (fl := fl) (cmp := (laneN w d k).toNat) c un (.inl rfl) bound (operand n)
  split
  · exact ⟨_, rfl, rfl, fun _ _ => full.spadWritePage, fun word atWord => spadNumber_spadWritePage fits small aligned atWord⟩
  · next failed =>
    refine ⟨t, rfl, rfl, fun _ _ => id, fun word _ => ?_⟩
    rw [laneNew, atomicNew_of_not_writes un fl (by simpa using failed)]
    split
    · next here => rw [here]
    · rfl

/-- The lanes of an atomic in ascending order, each on what the ones before it left. -/
theorem foldl_spadAtomicLane (w : Warp) (c : BitVec 3) (un fl : Bool) (n d : Nat) {va : Fin 32 → Nat} (ks : List (Fin 32)) {t : Team}
    (data : List (Nat × BitVec 128)) (flags : Word) {words : Nat → Nat} (fits : ∀ k ∈ ks, FitsPage t (va k) 4) (aligned : ∀ k ∈ ks, va k % 4 = 0)
    (found : ∀ o, o % 4 = 0 → spadNumber t o 4 = words o) :
    let r := chain va (fun k old => (laneNew w c un fl n d k old).1) ks words
    ∃ t', (ks.map fun k => (k.val, va k)).foldl (spadAtomicLane w c.toNat un fl n d) (t, data, flags) =
        (t', data ++ r.2.map (fun p => (p.1.val, BitVec.ofNat 128 p.2)), r.2.foldl (fun g p => g ||| (laneNew w c un fl n d p.1 p.2).2) flags) ∧
      t'.id = t.id ∧ ∀ o, o % 4 = 0 → spadNumber t' o 4 = r.1 o := by
  induction ks generalizing t data flags words with
  | nil => exact ⟨t, by simp [chain], rfl, found⟩
  | cons k ks ih =>
    have atWord := aligned k List.mem_cons_self
    obtain ⟨u, lane, sameId, keeps, leaves⟩ := spadAtomicLane_eq w c un fl n d data flags k (fits k List.mem_cons_self) atWord
    rw [found _ atWord] at lane leaves
    have next (o : Nat) (word : o % 4 = 0) :
        spadNumber u o 4 = if o = va k then (laneNew w c un fl n d k (words o)).1 else words o := by
      rw [leaves o word, found o word]
      split
      · next here => rw [here]
      · rfl
    obtain ⟨t', run, id', words'⟩ := ih (data ++ [(k.val, BitVec.ofNat 128 (words (va k)))]) (flags ||| (laneNew w c un fl n d k (words (va k))).2)
      (fun m later => keeps _ _ (fits m (List.mem_cons_of_mem k later))) (fun m later => aligned m (List.mem_cons_of_mem k later)) next
    refine ⟨t', ?_, id'.trans sameId, words'⟩
    rw [List.map_cons, List.foldl_cons, lane, run, List.append_assoc]
    rfl

/-- An atomic on ready pages is performed when it issues, and enters the outstanding loads with what each lane found. -/
theorem spadAtomic_of_ready {s : State} {t : Team} {i : Instr} (un fl : Bool) {c : BitVec 3} {d a b : Reg} {f : Form}
    (form : offsetForm s.w 4 1#1 d a 0#7 = f) (ready : SpadReady s t f) (unleased : Unleased s i) (counters : s.countersFull true true = none) :
    let r := chain f.o (fun k old => (laneNew s.w c un fl b.toNat d.toNat k old).1) (active s.w) fun o => spadNumber t o 4
    ∃ t', s.spadAtomic i un fl c d a b = (s.spadStarted.putTeam t').issueLoad
        ⟨0, s.w.frag.pc, 4, s.w.wbase + d.toNat, [], .atomic c.toNat un fl false [],
          some (r.2.map fun p => (p.1.val, BitVec.ofNat 128 p.2)), r.2.foldl (fun g p => g ||| (laneNew s.w c un fl b.toNat d.toNat p.1 p.2).2) 0#32,
          spadCount s.w f, false, none, s.clock, []⟩ ∧
      t'.id = t.id ∧ ∀ o, o % 4 = 0 → spadNumber t' o 4 = r.1 o := by
  have size : f.size = 4 := form ▸ rfl
  have sizes : f.size = 4 ∨ f.size = 8 ∨ f.size = 16 := .inl size
  have lanes : s.offsetAddrs a 0 = laneOffsets s.w f := (offsetAddrs_eq_laneOffsets s 4 1#1 d a 0#7).trans (by rw [form])
  have unmarked := (unmarked_of_ready ready).spadUse (pagesTouched s.w f) s.nextId
  obtain ⟨t', run, sameId, words⟩ := foldl_spadAtomicLane s.w c un fl b.toNat d.toNat (va := f.o) (active s.w) [] 0
    (t := t.spadUse (pagesTouched s.w f) s.nextId) (words := fun o => spadNumber t o 4)
    (fun k found => size ▸ fitsPage_of_ready ready sizes _ _ (mem_active.mp found)) (fun k found => size ▸ aligned_of_ready ready (mem_active.mp found))
    (fun o _ => spadNumber_spadUse t _ _ o 4)
  refine ⟨t', ?_, sameId.trans (Team.spadUse_id ..), words⟩
  rw [State.spadAtomic, lanes, ← size, spadAccess_of_ready true _ ready sizes unleased counters]
  dsimp only
  rw [unmarked.spadBad, if_pos List.isEmpty_nil, spadReqs_eq_spadCount sizes fun _ => aligned_of_ready ready, size]
  have operand (n l : Nat) : s.spadStarted.w.lane64 false n l = s.w.lane64 false n l := rfl
  unfold spadAtomicLane at run
  simp only [List.any_nil, Bool.not_false, List.filter_true, operand]
  rw [laneOffsets, run]
  rfl

/-! ### The statement -/

/-- The scratchpad atomics of the table, as the machine performs them. -/
theorem exec_of_spadAtomicForm {i : Instr} {s : State} {f : Form} {c : BitVec 3} {un fl : Bool} {n : Nat}
    (h : spadAtomicForm s.w i = some (f, c, un, fl, n)) :
    ∃ d a b : Reg, offsetForm s.w 4 1#1 d a 0#7 = f ∧ b.toNat = n ∧ exec i s = .next (s.checked i fun s => s.spadAtomic i un fl c d a b) := by
  cases i with
  | atomsI32 c d a b => cases h; exact ⟨d, a, b, rfl, rfl, rfl⟩
  | atomsN32 c d a b => cases h; exact ⟨d, a, b, rfl, rfl, rfl⟩
  | atomsF32 c d a b => cases h; exact ⟨d, a, b, rfl, rfl, rfl⟩
  | _ => cases h

/-- Settles O25: on ready pages no check, counter or mark holds an access back, a store's bytes are those of the last lane that covers them, and
an atomic's lanes act one after the other. -/
theorem scratchpadAccesses : Obligations.ScratchpadAccesses := by
  refine ⟨fun s t z k d a b ready requests => ⟨fun ok unleased room => ?load, fun ok unleased room => ?store⟩,
    fun i s t f c un fl n h ready ok unleased loads stores requests => ?atomic⟩
  case load =>
    have counters : s.countersFull true false = none := countersFull_none (fun _ => room) (fun no => nomatch no) requests
    have performed := spadLoad_of_ready rfl ready unleased counters
    obtain ⟨v, issued, moved, only⟩ := issueLoad_spad s _ _
    exact ⟨_, v, exec_of_checked ok rfl, moved, only, performed.trans issued⟩
  case store =>
    have counters : s.countersFull false true = none := countersFull_none (fun no => nomatch no) (fun _ => room) requests
    obtain ⟨t', performed, sameId, bytes⟩ := spadStore_of_ready rfl ready unleased counters
    obtain ⟨v, issued, moved, only⟩ := issueStore_spad s t' _
    exact ⟨_, v, t', exec_of_checked ok rfl, moved, sameId, only, performed.trans issued, bytes⟩
  case atomic =>
    obtain ⟨d, a, b, rfl, rfl, arm⟩ := exec_of_spadAtomicForm h
    have counters : s.countersFull true true = none := countersFull_none (fun _ => loads) (fun _ => stores) requests
    obtain ⟨t', performed, sameId, words⟩ := spadAtomic_of_ready un fl rfl ready unleased counters
    obtain ⟨v, issued, moved, only⟩ := issueLoad_spad s t' _
    exact ⟨_, v, t', exec_of_checked ok arm, moved, sameId, only, performed.trans issued, words⟩

end Sys2Proof.Machine
end

section
/-!
SUPPORT. Why the statements about the issue of global and lexical accesses fail (R68, R194, R283, R286). Setting the accessed bit of a table
entry is a write of a device unit, and an atomic that its bank has accepted keeps such a write to its bytes in its own `later` until it is
performed. So the translation that an access uses may change an older outstanding atomic of the warp, which the statements say stands.
-/

namespace Sys2Proof.Machine

open Sys2Proof.Claims

/-! ### A state in which a translation reaches an outstanding atomic -/

/-- An atomic on a table entry, which the bank of the entry has accepted. -/
def entryAtomic : Load where
  id := 0
  pc := 0#64
  size := 8
  dest := 2
  lanes := [⟨0, 0x12000, 0x12000, 0, 8⟩]
  kind := .atomic 0 true false false [(0#64, 0#64)]
  data := none
  flags := 0#32
  reqs := 1
  missed := true
  accepted := some 0
  since := 0
  later := []

/-- One warp of context 1, with thread 0 active and all registers zero. The tables map the first GiB onto itself through the entry at 0x12000,
whose accessed bit is clear and on which the warp's atomic is outstanding. -/
def entryContested : State :=
  let s := State.reset.loaded 0#32
  State.setW { s with
    mem := ((s.mem.writeBytes 0x10000 (leBytes 8 0x11001)).writeBytes 0x11000 (leBytes 8 0x12001)).writeBytes 0x12000 (leBytes 8 0x43)
    owners := [⟨1, true, false, 1, false⟩]
    ctxs := s.ctxs.map fun c => { c with pageTable := 0x10000 } } fun w =>
      ({ w with loads := [entryAtomic] }).setFrag fun f => { f with mask := 1#32 }

/-- The outstanding loads stand in the next state, before any that the instruction adds. -/
def loadsStand (s : State) : Result → Bool
  | .next t => t.w.loads.take s.w.loads.length == s.w.loads
  | _ => false

/-- A next state that keeps the outstanding loads and adds some is one in which they stand. -/
theorem loadsStand_of_append {s t : State} {i : Instr} {new : List Load} (run : exec i s = .next t) (kept : t.w.loads = s.w.loads ++ new) :
    loadsStand s (exec i s) = true := by
  rw [run, loadsStand, kept, List.take_left]
  exact beq_self_eq_true _

/-- The atomic on the entry takes the accessed bit that a load sets. -/
theorem load_changes_entryAtomic : loadsStand entryContested (exec (.ldgB32 0 0 4 0 0) entryContested) = false := by
  decide +kernel

/-- It takes the accessed and dirty bits that a store sets. -/
theorem store_changes_entryAtomic : loadsStand entryContested (exec (.stgB32 0 0 4 0 0) entryContested) = false := by
  decide +kernel

/-- It takes those that another atomic sets. -/
theorem atomic_changes_entryAtomic : loadsStand entryContested (exec (.atomgI32 0 4 0 6) entryContested) = false := by
  decide +kernel

/-! ### The refutations -/

/-- The registers that these accesses name are not leased: the warp has no lease. -/
theorem entryContested_unleased (i : Instr) : Unleased entryContested i := fun _ leased => nomatch (show _ ∈ [] from leased)

/-- Refutes O21: thread 0 of `entryContested` loads from address 0, and the accessed bit that its translation sets enters the warp's older
outstanding atomic on that table entry. -/
theorem not_loadsIssue : ¬ Obligations.LoadsIssue := by
  intro holds
  obtain ⟨t, v, run, -, issued, next⟩ := holds (.ldgB32 0 0 4 0 0) entryContested _ _ (fun _ => 0) rfl (by decide +kernel)
    (entryContested_unleased _) (by unfold Admitted; decide +kernel) (by unfold LoadRoom; decide +kernel) (by decide +kernel)
  have stand := loadsStand_of_append run (by rw [next]; exact congrArg Warp.loads issued)
  exact absurd (stand.symm.trans load_changes_entryAtomic) (by decide)

/-- Refutes O22: the same with a store, whose translation also sets the dirty bit. -/
theorem not_storesIssue : ¬ Obligations.StoresIssue := by
  intro holds
  obtain ⟨t, v, run, -, issued, next⟩ := holds (.stgB32 0 0 4 0 0) entryContested _ _ (fun _ => 0) rfl (by decide +kernel)
    (entryContested_unleased _) (by unfold Admitted; decide +kernel) (by decide +kernel) (by decide +kernel) (by decide +kernel)
  have stand := loadsStand_of_append (new := []) run (by rw [next]; exact (congrArg Warp.loads issued).trans (List.append_nil _).symm)
  exact absurd (stand.symm.trans store_changes_entryAtomic) (by decide)

/-- Refutes O23: the same with an atomic on address 0. -/
theorem not_atomicsIssue : ¬ Obligations.AtomicsIssue := by
  intro holds
  obtain ⟨t, v, run, -, issued, next⟩ := holds (.atomgI32 0 4 0 6) entryContested _ _ _ _ _ _ (fun _ => 0) rfl (by decide +kernel)
    (entryContested_unleased _) (by unfold Admitted; decide +kernel) (by unfold LoadRoom; decide +kernel) (by decide +kernel)
    (by decide +kernel) (by decide +kernel)
  have stand := loadsStand_of_append run (by rw [next]; exact congrArg Warp.loads issued)
  exact absurd (stand.symm.trans atomic_changes_entryAtomic) (by decide)

end Sys2Proof.Machine
end

section
/-!
SUPPORT. The barriers of a team: `bari`, `bara`, `barw` and `bart` (R242 to R244), and the statement about them.
-/

namespace Sys2Proof.Machine

open Sys2Proof.Claims

/-! ### The barriers of a team -/

theorem Team.barrier?_of_count {t : Team} {n : Nat} {x : Barrier} (here : t.barriers[n]? = some x) (counted : 0 < x.count) :
    t.barrier? n = some x := by
  rw [Team.barrier?, here, Option.bind_some, if_neg counted.ne']

/-- A barrier that the variant does not have is as good as one without a count. -/
theorem Team.barrier?_of_noCount {t : Team} {n : Nat} (noCount : ∀ x, t.barriers[n]? = some x → x.count = 0) :
    t.barrier? n = none :=
  Option.bind_eq_none_iff.mpr fun x here => if_pos (noCount x here)

theorem Barrier.arrive_eq_arrived (b : Barrier) : b.arrive = arrived b := by
  rw [Barrier.arrive, arrived]
  split <;> rfl

theorem setTeam_setBarrier (s : State) (id : TeamId) (n : Nat) (b : Barrier) :
    s.setTeam id (fun t => t.setBarrier n b) =
      { s with teams := s.teams.map fun y => if y.id = id then { y with barriers := y.barriers.set n b } else y } := by
  rw [State.setTeam, mapWhere]
  simp only [beq_iff_eq, Team.setBarrier]

/-! ### What completes an instruction on a barrier -/

theorem low32_phase (p : BitVec 16) : low32 p.toNat = p.setWidth 32 := BitVec.ofNat_toNat 32 p

theorem phase_bne_seen (p : BitVec 16) (seen : Word) : (p.setWidth 32 != seen) = decide (low32 p.toNat ≠ seen) := by
  rw [low32_phase, bne, Bool.beq_eq_decide_eq, ← decide_not]

/-- An instruction that writes one scalar and no flags. -/
theorem scalarResult_writeS (s : State) (d : Reg) (x : Word) : ScalarResult s (s.finish fun w => w.writeS d x) (one d x) 0#32 := by
  simpa only [State.scalarResult, Warp.setFlags_zero] using scalarResult_one s d x 0#32

theorem holdFor_barrier (s : State) : s.holdFor .barrier = { s with w := { s.w with hold := s.w.hold.set s.w.cur (some .barrier) } } := rfl

/-! ### The instructions -/

section
variable {s : State} {t : Team} {n : BitVec 10} {a b : Reg} {x : Barrier}

theorem exec_bari_sets (ok : s.precheck (.bari n a) = none) (team : s.team = some t) (here : t.barriers[n.toNat]? = some x)
    (idle : x.arrivals = 0) (positive : 0 < (s.w.readS a).toNat) (small : (s.w.readS a).toNat ≤ 65535) :
    exec (.bari n a) s = .next (s.setTeam t.id fun t => t.setBarrier n.toNat ⟨(s.w.readS a).toNat, 0, 0#16⟩).advance := by
  have legal : ((s.w.readS a).toNat = 0 || 65535 < (s.w.readS a).toNat || x.arrivals != 0) = false := by
    simp [idle, positive.ne', small]
  rw [exec_of_checked ok rfl]
  simp only [team, here, legal, Bool.false_eq_true, if_false]
  rfl

theorem exec_bari_raises (ok : s.precheck (.bari n a) = none) (team : s.team = some t)
    (bad : t.barriers[n.toNat]? = none ∨ (s.w.readS a).toNat = 0 ∨ 65535 < (s.w.readS a).toNat ∨
      ∃ x, t.barriers[n.toNat]? = some x ∧ x.arrivals ≠ 0) :
    exec (.bari n a) s = .next (s.raiseCode 0x1B) := by
  rw [exec_of_checked ok rfl]
  cases here : t.barriers[n.toNat]? with
  | none => simp only [team, here]
  | some x =>
    have illegal : ((s.w.readS a).toNat = 0 || 65535 < (s.w.readS a).toNat || x.arrivals != 0) = true := by
      simpa [here, or_assoc] using bad
    simp only [team, here, illegal, if_true]

theorem exec_bara (ok : s.precheck (.bara n a) = none) (team : s.team = some t) (found : t.barrier? n.toNat = some x) :
    exec (.bara n a) s =
      .next ((s.setTeam t.id fun t => t.setBarrier n.toNat x.arrive).finish fun w => w.writeS a (x.phase.setWidth 32)) := by
  rw [exec_of_checked ok rfl]
  simp only [team, found]

theorem exec_barw (ok : s.precheck (.barw n a) = none) (team : s.team = some t) (found : t.barrier? n.toNat = some x) :
    exec (.barw n a) s = .next (if low32 x.phase.toNat = s.w.readS a then s.holdFor .barrier else s.advance) := by
  rw [exec_of_checked ok rfl]
  simp only [team, Option.bind_some, found, beq_iff_eq, low32_phase]

theorem exec_bart (ok : s.precheck (.bart n a b) = none) (team : s.team = some t) (found : t.barrier? n.toNat = some x) :
    exec (.bart n a b) s =
      .next (s.finish fun w => w.writeS a (truth (decide (low32 x.phase.toNat ≠ s.w.readS b)))) := by
  rw [exec_of_checked ok rfl]
  simp only [team, Option.bind_some, found, phase_bne_seen, ← truth_eq_boolWord]
  rfl

/-- The instructions that need a barrier with a count (R242). -/
theorem exec_unset_raises {i : Instr} (needs : i = .bara n a ∨ i = .barw n a ∨ ∃ b, i = .bart n a b) (ok : s.precheck i = none)
    (team : s.team = some t) (unset : t.barrier? n.toNat = none) : exec i s = .next (s.raiseCode 0x1B) := by
  obtain rfl | rfl | ⟨b, rfl⟩ := needs
  all_goals
    rw [exec_of_checked ok rfl]
    simp only [team, Option.bind_some, unset]

/-- `bari` replaces the barrier in its team alone, and the warp moves on. -/
theorem bari_result (ok : s.precheck (.bari n a) = none) (team : s.team = some t) (here : t.barriers[n.toNat]? = some x)
    (idle : x.arrivals = 0) (positive : 0 < (s.w.readS a).toNat) (small : (s.w.readS a).toNat ≤ 65535) :
    ∃ v, Completed s v ∧ exec (.bari n a) s = .next { s with
      w := v
      teams := s.teams.map fun y =>
        if y.id = t.id then { y with barriers := y.barriers.set n.toNat ⟨(s.w.readS a).toNat, 0, 0#16⟩ } else y } :=
  ⟨s.w.advance, completed_advance s, by rw [exec_bari_sets ok team here idle positive small, setTeam_setBarrier, State.advance]⟩

/-- `bara` gives the phase from before its own arrival. -/
theorem bara_result (ok : s.precheck (.bara n a) = none) (team : s.team = some t) (found : t.barrier? n.toNat = some x) :
    ∃ u, exec (.bara n a) s = .next u ∧
      ScalarResult
        { s with teams := s.teams.map fun y => if y.id = t.id then { y with barriers := y.barriers.set n.toNat (arrived x) } else y } u
        (one a (low32 x.phase.toNat)) 0#32 := by
  refine ⟨_, exec_bara ok team found, ?_⟩
  rw [Barrier.arrive_eq_arrived, setTeam_setBarrier, low32_phase]
  exact scalarResult_writeS _ a _

end

/-- Settles O43: `bari` by its checks, the other three by whether the barrier has a count, `barw` by the phase. -/
theorem barriers : Obligations.Barriers := by
  intro s t n a team
  refine ⟨fun ok => ⟨fun x here idle positive small => bari_result ok team here idle positive small, exec_bari_raises ok team⟩,
    fun x here counted => ?_, fun noCount => ?_⟩
  · have found := Team.barrier?_of_count here counted
    refine ⟨fun ok => bara_result ok team found, fun ok => ⟨fun raised => ?_, fun seen => ?_⟩, fun b ok => ?_⟩
    · exact ⟨s.w.advance, completed_advance s, by rw [exec_barw ok team found, if_neg raised, State.advance]⟩
    · rw [exec_barw ok team found, if_pos seen, holdFor_barrier]
    · exact ⟨_, exec_bart ok team found, scalarResult_writeS s a _⟩
  · have unset := Team.barrier?_of_noCount noCount
    exact ⟨fun ok => exec_unset_raises (.inl rfl) ok team unset,
      fun ok => exec_unset_raises (.inr (.inl rfl)) ok team unset,
      fun b ok => exec_unset_raises (.inr (.inr ⟨b, rfl⟩)) ok team unset⟩

end Sys2Proof.Machine
end

section
/-!
SUPPORT and PROOF. The portal's answers (R296, R297), and a write into the MSI-X table (R363).
-/

namespace Sys2Proof.Machine

open Sys2Proof.Claims

/-! ### The header of a packet, by its bytes (R296) -/

/-- A number cut at byte n; short of n bytes the rest is zero. -/
theorem leNat_take_add_drop (n : Nat) (l : List Byte) : leNat (l.take n) + 256 ^ n * leNat (l.drop n) = leNat l := by
  induction l generalizing n with
  | nil => simp [leNat]
  | cons b l ih =>
    cases n with
    | zero => simp [leNat]
    | succ n => rw [List.take_succ_cons, List.drop_succ_cons, leNat, leNat, ← ih n, pow_succ']; ring

theorem leAt_add (b : List Byte) (off m n : Nat) : leAt b off (m + n) = leAt b off m + 256 ^ m * leAt b (off + m) n := by
  simp only [leAt]
  rw [← leNat_take_add_drop m ((b.drop off).take (m + n)), List.take_take, List.drop_take, List.drop_drop,
    Nat.min_eq_left (Nat.le_add_right m n), Nat.add_sub_cancel_left]

theorem leAt_lt (b : List Byte) (off n : Nat) : leAt b off n < 256 ^ n :=
  (leNat_lt _).trans_le (Nat.pow_le_pow_right (by decide) (List.length_take_le _ _))

theorem header_queue (b : List Byte) : (header b).queue = packetQueue b := by
  have cut : leAt b 0 8 = leAt b 0 1 + 256 ^ 1 * leAt b 1 7 := leAt_add b 0 1 7
  have low := leAt_lt b 0 1
  simp only [header, bitsOf, packetQueue, Nat.shiftRight_zero]
  omega

theorem header_seq (b : List Byte) : (header b).seq = packetSeq b := by
  have cut : leAt b 0 8 = leAt b 0 4 + 256 ^ 4 * leAt b 4 4 := leAt_add b 0 4 4
  have low := leAt_lt b 0 4
  have high := leAt_lt b 4 4
  simp only [header, bitsOf, packetSeq, Nat.shiftRight_eq_div_pow]
  omega

theorem packetSeq_lt (b : List Byte) : packetSeq b < 2 ^ 32 := (leAt_lt b 4 4).trans_eq (by norm_num)

/-! ### The rows of the portal's table (R297) -/

/-- How far a sequence number is behind the expected one, modulo 2^32. -/
theorem toNat_expected_sub (e : BitVec 32) {n : Nat} (small : n < 2 ^ 32) :
    (e - BitVec.ofNat 32 n).toNat = (e.toNat + 2 ^ 32 - n) % 2 ^ 32 := by
  rw [BitVec.toNat_sub, BitVec.toNat_ofNat, Nat.mod_eq_of_lt small]
  omega

theorem State.linkUp_of_enabled {s : State} (up : LinkEnabled s) : s.linkUp = true := by
  obtain ⟨host, noRecovery⟩ := up
  simp [State.linkUp, host, noRecovery]

theorem exec_portalWrite (b : BarWrite) (s : State) : exec (.portalWrite b) s = .next (s.portal b) := rfl

/-- The portal's own test of a queue is R297's. -/
theorem takes_iff (b : BarWrite) (q : Queue) :
    (b.bytes.length == 64 && b.offset == 0x1000 && b.pasid == q.pasid) = true ↔ QueueTakes b q := by
  simp [QueueTakes, and_assoc]

section
variable {s : State} {b : BarWrite} {v : Vf} (here : s.vf? b.vf = some v) (up : LinkEnabled s) (enabled : v.enabled = true)
include here up enabled

theorem exec_portalWrite_closed (closed : v.portalOpen = false) :
    exec (.portalWrite b) s = .next (s.send (.unsupportedRequest b.vf)) := by
  rw [exec_portalWrite]
  simp [State.portal, here, State.linkUp_of_enabled up, enabled, closed]

theorem exec_portalWrite_untaken (opened : v.portalOpen = true)
    (untaken : ∀ q, v.queue? (packetQueue b.bytes) = some q → ¬ QueueTakes b q) :
    exec (.portalWrite b) s = .next ((s.send (.unsupportedRequest b.vf)).queue0Event b.vf 0x42 (packetQueue b.bytes)) := by
  have noQueue : ((v.queue? (packetQueue b.bytes)).filter fun q => b.bytes.length == 64 && b.offset == 0x1000 && b.pasid == q.pasid) =
      none := by
    simpa only [Option.filter_eq_none_iff, takes_iff] using untaken
  rw [exec_portalWrite]
  simp only [State.portal, here, State.linkUp_of_enabled up, enabled, opened, header_queue, noQueue, Bool.not_true, Bool.or_self,
    Bool.false_eq_true, if_false]

/-- The answers to a write that a queue may take, by how far its sequence number is behind the expected one. -/
theorem exec_portalWrite_taken (opened : v.portalOpen = true) {q : Queue} (found : v.queue? (packetQueue b.bytes) = some q)
    (takes : QueueTakes b q) :
    let back := (q.expected - BitVec.ofNat 32 (packetSeq b.bytes)).toNat
    exec (.portalWrite b) s = .next
      (if back = 0 then
        if q.buffer.length < 16 then
          (s.setQueue b.vf (packetQueue b.bytes) fun q => { q with expected := q.expected + 1#32, buffer := q.buffer ++ [b.bytes] }).send
            (.portalSuccess b.vf)
        else s.send (.portalRetry b.vf)
      else if back ≤ 2 ^ 31 then s.send (.portalSuccess b.vf) else s.send (.portalRetry b.vf)) := by
  have taken : ((v.queue? (packetQueue b.bytes)).filter fun q => b.bytes.length == 64 && b.offset == 0x1000 && b.pasid == q.pasid) =
      some q := by
    rw [found, Option.filter_some, if_pos ((takes_iff b q).mpr takes)]
  have small := packetSeq_lt b.bytes
  have expected := q.expected.isLt
  have distance := toNat_expected_sub q.expected small
  have same : packetSeq b.bytes = q.expected.toNat ↔ (q.expected - BitVec.ofNat 32 (packetSeq b.bytes)).toNat = 0 := by omega
  rw [exec_portalWrite]
  simp only [State.portal, here, State.linkUp_of_enabled up, enabled, opened, header_queue, header_seq, taken, same, ← distance,
    Bool.not_true, Bool.or_self, Bool.false_eq_true, if_false]
  split
  · rfl
  · next ahead =>
    simp only [Nat.one_le_iff_ne_zero.mpr ahead, decide_true, Bool.true_and, decide_eq_true_eq]

end

/-! ### The bytes of the MSI-X table (R363) -/

/-- The byte that the table holds at an offset, where it holds one. -/
def tableByte (t : List (Nat × Byte)) (k : Nat) : Option Byte := (t.find? fun e => e.1 == k).map (·.2)

theorem tableByte_upsert (t : List (Nat × Byte)) (i k : Nat) (x : Byte) :
    tableByte (upsert (fun e => e.1 == i) (fun _ => (i, x)) (i, x) t) k = if i = k then some x else tableByte t k := by
  induction t with
  | nil => by_cases same : i = k <;> simp [upsert, tableByte, same]
  | cons e t ih =>
    rw [upsert]
    by_cases old : e.1 = i
    · by_cases same : i = k <;> simp [tableByte, old, same]
    · simp only [tableByte] at ih ⊢
      by_cases other : e.1 = k
      · have apart : i ≠ k := fun same => old (other.trans same.symm)
        rw [if_neg (by simpa using old)]
        simp [other, apart]
      · simp [old, other, ih]

theorem indexed_snoc {α : Type} (l : List α) (x : α) : indexed (l ++ [x]) = indexed l ++ [(l.length, x)] := by
  rw [indexed, indexed, List.length_append, List.length_singleton, List.range_succ,
    List.zip_append (List.length_range), List.zip_cons_cons, List.zip_nil_right]

/-- The last byte of a write, in the table. -/
theorem Vf.msixPut_snoc (v : Vf) (b : BarWrite) {l : List Byte} {x : Byte} (low : 0x2000 ≤ b.offset + l.length)
    (high : b.offset + l.length < 0x3000) :
    v.msixPut { b with bytes := l ++ [x] } =
      let u := v.msixPut { b with bytes := l }
      let i := b.offset + l.length - 0x2000
      { u with msixTable := upsert (fun e => e.1 == i) (fun _ => (i, x)) (i, x) u.msixTable } := by
  simp only [Vf.msixPut, indexed_snoc, List.foldl_append, List.foldl_cons, List.foldl_nil, low, high, decide_true, Bool.and_self, if_true]

/-- A write within the table changes nothing of the function but the table, and of the table the bytes written. -/
theorem Vf.msixPut_inTable (v : Vf) {b : BarWrite} (low : 0x2000 ≤ b.offset) (high : b.offset + b.bytes.length ≤ 0x3000) :
    v.msixPut b = { v with msixTable := (v.msixPut b).msixTable } ∧
      ∀ k, tableByte (v.msixPut b).msixTable k =
        if b.offset ≤ 0x2000 + k ∧ 0x2000 + k < b.offset + b.bytes.length then b.bytes[0x2000 + k - b.offset]? else tableByte v.msixTable k := by
  obtain ⟨vf, offset, pasid, bytes⟩ := b
  dsimp only at low high ⊢
  induction bytes using List.reverseRecOn with
  | nil =>
    refine ⟨rfl, fun k => ?_⟩
    rw [if_neg (by rw [List.length_nil]; omega)]
    rfl
  | append_singleton l x ih =>
    rw [List.length_append, List.length_singleton] at high ⊢
    obtain ⟨only, table⟩ := ih (by omega)
    rw [Vf.msixPut_snoc v ⟨vf, offset, pasid, []⟩ (l := l) (x := x) (by dsimp only; omega) (by dsimp only; omega)]
    refine ⟨by rw [only], fun k => ?_⟩
    rw [tableByte_upsert, table k]
    by_cases last : offset + l.length - 0x2000 = k
    · have place : 0x2000 + k - offset = l.length := by omega
      rw [if_pos last, if_pos (by omega), place, List.getElem?_concat_length]
    · rw [if_neg last]
      by_cases written : offset ≤ 0x2000 + k ∧ 0x2000 + k < offset + l.length
      · rw [if_pos written, if_pos (by omega), List.getElem?_append_left (by omega)]
      · rw [if_neg written, if_neg (by omega)]

/-! ### A write into the MSI-X table -/

theorem find?_mapWhere {α : Type} {p : α → Bool} {f : α → α} (keeps : ∀ x, p x = true → p (f x) = true) (l : List α) :
    (mapWhere p f l).find? p = (l.find? p).map f := by
  induction l with
  | nil => rfl
  | cons x l ih =>
    rw [mapWhere] at ih ⊢
    cases holds : p x with
    | false => simp [holds, ih]
    | true => simp [holds, keeps x holds]

theorem State.vf?_setVf (s : State) (n : Nat) {f : Vf → Vf} (keeps : ∀ v, (f v).n = v.n) : (s.setVf n f).vf? n = (s.vf? n).map f :=
  find?_mapWhere (fun v named => by rw [keeps, named]) s.vfs

/-- With no vector pending, none is sent. -/
theorem State.releaseMsix_of_nonePending {s : State} {n : Nat} {v : Vf} (here : s.vf? n = some v) (idle : v.msixPending = []) :
    s.releaseMsix n = s.setVf n fun v => { v with msixPending := [] } := by
  rw [State.releaseMsix, here]
  simp only [idle, List.foldl_nil]

theorem exec_msixTableWrite (b : BarWrite) (s : State) : exec (.msixTableWrite b) s = .next (s.msixWrite b) := rfl

theorem State.msixWrite_of_vf {s : State} {b : BarWrite} {v : Vf} (here : s.vf? b.vf = some v) (up : LinkEnabled s) :
    s.msixWrite b = (s.setVf b.vf fun v => v.msixPut b).releaseMsix b.vf := by
  have virtual : (decide (b.vf = 0) && (s.vf? 0).isNone) = false :=
    Bool.and_eq_false_imp.mpr fun zero => by rw [← of_decide_eq_true zero, here, Option.isNone_some]
  simp only [State.msixWrite, State.linkUp_of_enabled up, virtual, Bool.not_true, Bool.false_eq_true, if_false]

/-- A write within the table of a function with no vector pending sends nothing and changes its function alone. -/
theorem exec_msixTableWrite_inTable {s : State} {b : BarWrite} {v : Vf} (here : s.vf? b.vf = some v) (up : LinkEnabled s)
    (low : 0x2000 ≤ b.offset) (high : b.offset + b.bytes.length ≤ 0x3000) (idle : v.msixPending = []) :
    ∃ u, exec (.msixTableWrite b) s = .next u ∧ u.vf? b.vf = some (v.msixPut b) ∧ u.outbox = s.outbox ∧ u.mem = s.mem := by
  have only (w : Vf) : w.msixPut b = { w with msixTable := (w.msixPut b).msixTable } := (w.msixPut_inTable low high).1
  have still : (v.msixPut b).msixPending = [] := by rw [only, idle]
  have put : (s.setVf b.vf fun v => v.msixPut b).vf? b.vf = some (v.msixPut b) := by
    rw [State.vf?_setVf s b.vf fun w => by rw [only], here, Option.map_some]
  have cleared : { v.msixPut b with msixPending := [] } = v.msixPut b := by rw [← still]
  refine ⟨(s.setVf b.vf fun v => v.msixPut b).setVf b.vf fun v => { v with msixPending := [] }, ?_, ?_, rfl, rfl⟩
  · rw [exec_msixTableWrite, State.msixWrite_of_vf here up, State.releaseMsix_of_nonePending put still]
  · rw [State.vf?_setVf (s.setVf b.vf fun v => v.msixPut b) b.vf (f := fun v => { v with msixPending := [] }) fun _ => rfl, put,
      Option.map_some, cleared]

/-- Settles O53: the rows of R297 by their conditions; a write within the MSI-X table byte by byte. -/
theorem portalAnswers : Obligations.PortalAnswers := by
  intro s b v here up
  refine ⟨exec_portalWrite_closed here up, fun enabled opened => ?_, rfl, fun low high idle => ?_⟩
  · refine ⟨exec_portalWrite_untaken here up enabled opened, fun q found takes => ?_⟩
    have answer := exec_portalWrite_taken here up enabled opened found takes
    refine ⟨fun same room => ?_, fun same full => ?_, fun behind near => ?_, fun far => ?_⟩
    · rw [answer, if_pos same, if_pos room]
    · rw [answer, if_pos same, if_neg full.not_gt]
    · rw [answer, if_neg (Nat.one_le_iff_ne_zero.mp behind), if_pos near]
    · rw [answer, if_neg (Nat.ne_zero_of_lt far), if_neg far.not_ge]
  · obtain ⟨only, table⟩ := v.msixPut_inTable low high
    obtain ⟨u, run, put, sent, mem⟩ := exec_msixTableWrite_inTable here up low high idle
    exact ⟨u, _, run, put, by rw [only], sent, mem, table⟩

end Sys2Proof.Machine
end
